-- ==== Sys2Proof/Word.lean ====
section
/-! DEFINITION. The word types of the block: every unit it moves is one byte (spec/20_memory.md R42), and the
status word is 16 bits wide (spec/10_state.md R20). A single bit (a wire level, a flag, an operand bit) is a `Bool`
with `true` for 1. -/

namespace Sys2Proof

/-- A byte: a scancode, a command byte, a character, a queue entry (R8, R42). -/
abbrev Byte := BitVec 8

/-- A 16-bit word: the status word (R20), and the bits of one coded operation (`Code`). -/
abbrev Word16 := BitVec 16

end Sys2Proof
end

