-- ==== Sys2Proof/Config.lean ====
section
/-! DEFINITION. The implementation parameters of spec/00_scope.md R5, as one plain record. The model takes them as
an argument: every meaning reads the record that the state carries (`State.cfg`), no operation writes it, and every
statement quantifies over it. What a record must satisfy is `Config.Wf` (Sys2Proof/WellFormed.lean, R158); the one
record `State.reset` carries is `Config.default` (Sys2Proof/Machine/Tables.lean; log entry 6). -/

namespace Sys2Proof

/-- A translation table as a read-only memory: (scancode, character) pairs in one canonical form, scancodes strictly
rising, no character `0x00`. A scancode that is not listed has no entry (R44). -/
abbrev Rom := List Host.Cell

/-- The parameters of R5, each fixed for the life of a run. -/
structure Config where
  /-- `N`, the queue's capacity, at least 1 (OPEN in the spec, D13). -/
  n : Nat
  /-- `T_NORMAL` (OPEN in the spec under TC1 to TC4, D16). -/
  tNormal : Rom
  /-- `T_SHIFT`. -/
  tShift : Rom
  /-- `T_NUM`. -/
  tNum : Rom
  /-- `T_EXT`. -/
  tExt : Rom
  /-- `SC_LSHIFT`. -/
  scLshift : Byte
  /-- `SC_RSHIFT`. -/
  scRshift : Byte
  /-- `SC_CTRL`, both sides (R67). -/
  scCtrl : Byte
  /-- `SC_ALT`, both sides (R67). -/
  scAlt : Byte
  /-- `SC_CAPS`. -/
  scCaps : Byte
  /-- `SC_NUM`. -/
  scNum : Byte
  /-- `SC_SCROLL`. -/
  scScroll : Byte
  /-- `CMD_SET_LEDS`, the first byte of the LED update (R71). -/
  cmdSetLeds : Byte
  /-- `RTS_HOLD`, a duration with no unit: no rule depends on it (R202, D28). The model shows it in the output action
  `Obs.rts` and nowhere else. -/
  rtsHold : Nat
deriving DecidableEq, Repr

end Sys2Proof
end

