-- ==== Sys2Proof/Machine/Tables.lean ====
section
/-! DEFINITION. `DEFAULT_TABLES` of spec/93_implementation_defined.md G9 and the parameter record that `State.reset`
carries. The tables are the spec's own example, not the firmware's, and `N = 16` is the value of the spec's test
vectors (spec/92_eei_decisions.md D13, D16): a statement that rests on one of these values says so (log entry 6). -/

namespace Sys2Proof

/-- `T_NORMAL` of `DEFAULT_TABLES`. -/
def Config.defaultNormal : Rom :=
  [(0x0D, 0x09), (0x0E, 0x60), (0x15, 0x71), (0x16, 0x31), (0x1A, 0x7A), (0x1B, 0x73), (0x1C, 0x61),
    (0x1D, 0x77), (0x1E, 0x32), (0x21, 0x63), (0x22, 0x78), (0x23, 0x64)] ++
  [(0x24, 0x65), (0x25, 0x34), (0x26, 0x33), (0x29, 0x20), (0x2A, 0x76), (0x2B, 0x66), (0x2C, 0x74),
    (0x2D, 0x72), (0x2E, 0x35), (0x31, 0x6E), (0x32, 0x62), (0x33, 0x68)] ++
  [(0x34, 0x67), (0x35, 0x79), (0x36, 0x36), (0x3A, 0x6D), (0x3B, 0x6A), (0x3C, 0x75), (0x3D, 0x37),
    (0x3E, 0x38), (0x41, 0x2C), (0x42, 0x6B), (0x43, 0x69), (0x44, 0x6F)] ++
  [(0x45, 0x30), (0x46, 0x39), (0x49, 0x2E), (0x4A, 0x2F), (0x4B, 0x6C), (0x4C, 0x3B), (0x4D, 0x70),
    (0x4E, 0x2D), (0x52, 0x27), (0x54, 0x5B), (0x55, 0x3D), (0x5A, 0x0D)] ++
  [(0x5B, 0x5D), (0x5D, 0x5C), (0x66, 0x08), (0x76, 0x1B), (0x79, 0x2B), (0x7B, 0x2D), (0x7C, 0x2A)]

/-- `T_SHIFT` of `DEFAULT_TABLES`. -/
def Config.defaultShift : Rom :=
  [(0x0D, 0x09), (0x0E, 0x7E), (0x15, 0x71), (0x16, 0x21), (0x1A, 0x7A), (0x1B, 0x73), (0x1C, 0x61),
    (0x1D, 0x77), (0x1E, 0x40), (0x21, 0x63), (0x22, 0x78), (0x23, 0x64)] ++
  [(0x24, 0x65), (0x25, 0x24), (0x26, 0x23), (0x29, 0x20), (0x2A, 0x76), (0x2B, 0x66), (0x2C, 0x74),
    (0x2D, 0x72), (0x2E, 0x25), (0x31, 0x6E), (0x32, 0x62), (0x33, 0x68)] ++
  [(0x34, 0x67), (0x35, 0x79), (0x36, 0x5E), (0x3A, 0x6D), (0x3B, 0x6A), (0x3C, 0x75), (0x3D, 0x26),
    (0x3E, 0x2A), (0x41, 0x3C), (0x42, 0x6B), (0x43, 0x69), (0x44, 0x6F)] ++
  [(0x45, 0x29), (0x46, 0x28), (0x49, 0x3E), (0x4A, 0x3F), (0x4B, 0x6C), (0x4C, 0x3A), (0x4D, 0x70),
    (0x4E, 0x5F), (0x52, 0x22), (0x54, 0x7B), (0x55, 0x2B), (0x5A, 0x0D)] ++
  [(0x5B, 0x7D), (0x5D, 0x7C), (0x66, 0x08), (0x76, 0x1B), (0x79, 0x2B), (0x7B, 0x2D), (0x7C, 0x2A)]

/-- `T_NUM` of `DEFAULT_TABLES`. -/
def Config.defaultNum : Rom :=
  [(0x0D, 0x09), (0x0E, 0x60), (0x15, 0x71), (0x16, 0x31), (0x1A, 0x7A), (0x1B, 0x73), (0x1C, 0x61),
    (0x1D, 0x77), (0x1E, 0x32), (0x21, 0x63), (0x22, 0x78), (0x23, 0x64)] ++
  [(0x24, 0x65), (0x25, 0x34), (0x26, 0x33), (0x29, 0x20), (0x2A, 0x76), (0x2B, 0x66), (0x2C, 0x74),
    (0x2D, 0x72), (0x2E, 0x35), (0x31, 0x6E), (0x32, 0x62), (0x33, 0x68)] ++
  [(0x34, 0x67), (0x35, 0x79), (0x36, 0x36), (0x3A, 0x6D), (0x3B, 0x6A), (0x3C, 0x75), (0x3D, 0x37),
    (0x3E, 0x38), (0x41, 0x2C), (0x42, 0x6B), (0x43, 0x69), (0x44, 0x6F)] ++
  [(0x45, 0x30), (0x46, 0x39), (0x49, 0x2E), (0x4A, 0x2F), (0x4B, 0x6C), (0x4C, 0x3B), (0x4D, 0x70),
    (0x4E, 0x2D), (0x52, 0x27), (0x54, 0x5B), (0x55, 0x3D), (0x5A, 0x0D)] ++
  [(0x5B, 0x5D), (0x5D, 0x5C), (0x66, 0x08), (0x69, 0x31), (0x6B, 0x34), (0x6C, 0x37), (0x70, 0x30),
    (0x71, 0x2E), (0x72, 0x32), (0x73, 0x35), (0x74, 0x36), (0x75, 0x38)] ++
  [(0x76, 0x1B), (0x79, 0x2B), (0x7A, 0x33), (0x7B, 0x2D), (0x7C, 0x2A), (0x7D, 0x39)]

/-- `T_EXT` of `DEFAULT_TABLES`. -/
def Config.defaultExt : Rom :=
  [(0x4A, 0x2F), (0x5A, 0x0D), (0x69, 0x85), (0x6B, 0x82), (0x6C, 0x84), (0x70, 0x88), (0x71, 0x7F),
    (0x72, 0x81), (0x74, 0x83), (0x75, 0x80), (0x7A, 0x87), (0x7D, 0x86)]

/-- The parameter record of the spec's default values: key codes and `CMD_SET_LEDS` of spec/00_scope.md R5,
`DEFAULT_TABLES`, `N = 16`, and `RTS_HOLD` written as 100 (the order of magnitude of R235, read by no rule). -/
def Config.default : Config :=
  { n := 16
    tNormal := Config.defaultNormal
    tShift := Config.defaultShift
    tNum := Config.defaultNum
    tExt := Config.defaultExt
    scLshift := 0x12
    scRshift := 0x59
    scCtrl := 0x14
    scAlt := 0x11
    scCaps := 0x58
    scNum := 0x77
    scScroll := 0x7E
    cmdSetLeds := 0xED
    rtsHold := 100 }

end Sys2Proof
end

