-- ==== Sys2Proof/Syntax.lean ====
section
/-! DEFINITION. The operations of the block as syntax: one constructor of `Instr` per row of spec/opcode_table.json
(spec/30_encoding.md R79: formats FRAME, EDGE, SC, CMD, OP), and the coded form `Code` in which an operation stands
in the block's input lists. -/

namespace Sys2Proof

/-- Transfer Mode (spec/10_state.md R13). -/
inductive Mode where
  | idle
  | receiving
  | sending
deriving DecidableEq, Repr

/-- Which `INIT` it is (spec/43_host_ops.md R180): the reset input, always enabled, or the call `keyboard_init()`,
made by the one foreground and so enabled only when the foreground is not held (spec/90_conflicts.md C11). -/
inductive InitKind where
  | reset
  | call
deriving DecidableEq, Repr

/-- The rows of spec/opcode_table.json. An operand `d` is the level of the data wire sampled at the clock edge. -/
inductive Instr where
  -- FRAME: whole wire frames (R60, R61)
  | rxFrame (start : Bool) (b : Byte) (parity stop : Bool)
  | txFrame (b : Byte) (ack : Bool)
  -- EDGE: the responses to a clock edge, one per (MODE, POS) pair (R73)
  | rxStart (d : Bool)
  | rxData1 (d : Bool)
  | rxData2 (d : Bool)
  | rxData3 (d : Bool)
  | rxData4 (d : Bool)
  | rxData5 (d : Bool)
  | rxData6 (d : Bool)
  | rxData7 (d : Bool)
  | rxData8 (d : Bool)
  | rxParity (d : Bool)
  | rxStop (d : Bool)
  | txStart (d : Bool)
  | txData1 (d : Bool)
  | txData2 (d : Bool)
  | txData3 (d : Bool)
  | txData4 (d : Bool)
  | txData5 (d : Bool)
  | txData6 (d : Bool)
  | txData7 (d : Bool)
  | txData8 (d : Bool)
  | txParity (d : Bool)
  | txStop (d : Bool)
  | txAck (d : Bool)
  -- SC: what CONSUME does with a byte, by class and prefix context (R65, R70)
  | scEmpty
  | extPrefix
  | breakPrefix
  | batOk
  | brkLshift
  | brkRshift
  | brkCtrl
  | brkAlt
  | brkCaps
  | brkNum
  | brkScroll
  | brkOther (sc : Byte)
  | extCtrl
  | extAlt
  | extOther (sc : Byte)
  | makeLshift
  | makeRshift
  | makeCtrl
  | makeAlt
  | makeCaps
  | makeNum
  | makeScroll
  | makeCapsLatched
  | makeNumLatched
  | makeScrollLatched
  | makeOther (sc : Byte)
  -- CMD: the one command the block builds (R71)
  | ledCommand (caps num scroll : Bool)
  -- OP: the operations invoked by name (R75)
  | edge (d : Bool)
  | sendStart
  | enqueue (b : Byte)
  | dequeue
  | translate (sc : Byte)
  | consume
  | poll
  | sendCommand (b : Byte)
  | setLeds (caps num scroll : Bool)
  | status
  | init (kind : InitKind)
deriving DecidableEq, Repr

/-- The formats of spec/opcode_table.json (R79); FRAME is split by direction, since its two rows differ in length. -/
inductive Format where
  | frameRx
  | frameTx
  | edge
  | sc
  | cmd
  | op
deriving DecidableEq, Repr

/-- One coded operation: its format and its bits, laid out as Sys2Proof/Decode.lean says. -/
structure Code where
  fmt : Format
  bits : Word16
deriving DecidableEq, Repr

/-- Why a `Code` is no operation. -/
inductive DecodeError where
  /-- a bit outside the format's pattern is 1 -/
  | reservedBits
  /-- the 6-bit key is none of the pairs of R73 -/
  | unreachableKey
  /-- a send frame whose start, parity or stop bit is not the one the block drives (R61, R63) -/
  | notABlockFrame
  /-- a command that is not the LED update, the one command the block builds (R71) -/
  | notTheLedCommand
  /-- a tag above 10 (R79) -/
  | unknownTag
deriving DecidableEq, Repr

/-- The two agents whose inputs the block takes one at a time (spec/00_scope.md R6): the line, whose events the
interrupt context answers at once (the reset input is taken the same way), and the foreground context, which performs
the host application's calls. -/
inductive Agent where
  | line
  | foreground
deriving DecidableEq, Repr

/-- The format of an operation's row. -/
def Instr.format : Instr → Format
  | .rxFrame .. => .frameRx
  | .txFrame .. => .frameTx
  | .rxStart _ | .rxData1 _ | .rxData2 _ | .rxData3 _ | .rxData4 _ | .rxData5 _ | .rxData6 _ | .rxData7 _
  | .rxData8 _ | .rxParity _ | .rxStop _ => .edge
  | .txStart _ | .txData1 _ | .txData2 _ | .txData3 _ | .txData4 _ | .txData5 _ | .txData6 _ | .txData7 _
  | .txData8 _ | .txParity _ | .txStop _ | .txAck _ => .edge
  | .scEmpty | .extPrefix | .breakPrefix | .batOk => .sc
  | .brkLshift | .brkRshift | .brkCtrl | .brkAlt | .brkCaps | .brkNum | .brkScroll | .brkOther _ => .sc
  | .extCtrl | .extAlt | .extOther _ => .sc
  | .makeLshift | .makeRshift | .makeCtrl | .makeAlt | .makeCaps | .makeNum | .makeScroll
  | .makeCapsLatched | .makeNumLatched | .makeScrollLatched | .makeOther _ => .sc
  | .ledCommand .. => .cmd
  | .edge _ | .sendStart | .enqueue _ | .dequeue | .translate _ | .consume | .poll | .sendCommand _
  | .setLeds .. | .status | .init _ => .op

/-- The row `RX.DATA.(i+1)`: the response in receive at position `i + 1` (R92). -/
def Instr.rxData (i : Fin 8) (d : Bool) : Instr :=
  match i with
  | 0 => .rxData1 d
  | 1 => .rxData2 d
  | 2 => .rxData3 d
  | 3 => .rxData4 d
  | 4 => .rxData5 d
  | 5 => .rxData6 d
  | 6 => .rxData7 d
  | 7 => .rxData8 d

/-- The row `TX.DATA.(i+1)`: the response in send at position `i + 1` (R101). -/
def Instr.txData (i : Fin 8) (d : Bool) : Instr :=
  match i with
  | 0 => .txData1 d
  | 1 => .txData2 d
  | 2 => .txData3 d
  | 3 => .txData4 d
  | 4 => .txData5 d
  | 5 => .txData6 d
  | 6 => .txData7 d
  | 7 => .txData8 d

end Sys2Proof
end

