-- ==== Sys2Proof/Machine/Coding.lean ====
section
/-! DEFINITION. The encodings every layer shares: the table lookup `Tbl` (spec/20_memory.md R44), the parity function
`P` (spec/30_encoding.md R63), the classes of a scancode (R65), the LED byte (R71) and the (MODE, POS) key of an edge
response (R73, R79). -/

namespace Sys2Proof

/-- `Tbl(t, sc)` (R44): the character listed for `sc`, or none. The character `0x00` stands for "no entry" (TC4). -/
def Rom.read (t : Rom) (sc : Byte) : Option Byte :=
  match t with
  | [] => none
  | cell :: rest => if cell.1 = sc.toNat then (if cell.2 = 0 then none else some cell.2) else Rom.read rest sc

/-- The xor of the eight bits of a byte, `xor8` of R8. -/
def xor8 (b : Byte) : Bool :=
  b.getLsbD 0 ^^ b.getLsbD 1 ^^ b.getLsbD 2 ^^ b.getLsbD 3 ^^ b.getLsbD 4 ^^ b.getLsbD 5 ^^ b.getLsbD 6 ^^ b.getLsbD 7

/-- `P(b) = 1 ^ xor8(b)` (R63): 1 when `b` has an even number of 1 bits. -/
def parity (b : Byte) : Bool := !xor8 b

/-- `zext_8(d)`: one bit as a byte (R8). -/
def zext8 (d : Bool) : Byte := (BitVec.ofBool d).setWidth 8

/-- The eight bits of a byte in wire order, least significant first (R40, R41). -/
def wireBits (b : Byte) : List Bool :=
  [b.getLsbD 0, b.getLsbD 1, b.getLsbD 2, b.getLsbD 3, b.getLsbD 4, b.getLsbD 5, b.getLsbD 6, b.getLsbD 7]

/-- A lowercase letter, `0x61` to `0x7A` (R152, D18). -/
def isLower (c : Byte) : Bool := 0x61#8 ≤ c && c ≤ 0x7A#8

/-- The classes of R65. -/
inductive ScClass where
  | extPrefix
  | breakPrefix
  | batOk
  | shift
  | ctrl
  | alt
  | caps
  | num
  | scroll
  | other
deriving DecidableEq, Repr

/-- R65: the first line that matches wins. -/
def classify (cfg : Config) (sc : Byte) : ScClass :=
  if sc = 0xE0#8 then .extPrefix
  else if sc = 0xF0#8 then .breakPrefix
  else if sc = 0xAA#8 then .batOk
  else if sc = cfg.scLshift ∨ sc = cfg.scRshift then .shift
  else if sc = cfg.scCtrl then .ctrl
  else if sc = cfg.scAlt then .alt
  else if sc = cfg.scCaps then .caps
  else if sc = cfg.scNum then .num
  else if sc = cfg.scScroll then .scroll
  else .other

/-- Whether the byte is looked up in `T_EXT` in extended context (R143): every key class but Ctrl and Alt. -/
def ScClass.extLooksUp : ScClass → Bool
  | .shift | .caps | .num | .scroll | .other => true
  | .extPrefix | .breakPrefix | .batOk | .ctrl | .alt => false

/-- `LEDBYTE = {0b00000, caps, num, scroll}` (R71). -/
def ledByte (caps num scroll : Bool) : Byte :=
  0#5 ++ BitVec.ofBool caps ++ BitVec.ofBool num ++ BitVec.ofBool scroll

/-- The codes of `MODE` in the key of R79 (D33). -/
def Mode.code : Mode → BitVec 2
  | .idle => 0
  | .receiving => 1
  | .sending => 2

/-- The row that answers an edge in the pair (MODE, POS), with the sampled level `d` (R73); none for the pairs R73
does not list. -/
def edgeRow (m : Mode) (pos : Nat) (d : Bool) : Option Instr :=
  match m, pos with
  | .idle, 0 => some (.rxStart d)
  | .receiving, 1 => some (.rxData1 d)
  | .receiving, 2 => some (.rxData2 d)
  | .receiving, 3 => some (.rxData3 d)
  | .receiving, 4 => some (.rxData4 d)
  | .receiving, 5 => some (.rxData5 d)
  | .receiving, 6 => some (.rxData6 d)
  | .receiving, 7 => some (.rxData7 d)
  | .receiving, 8 => some (.rxData8 d)
  | .receiving, 9 => some (.rxParity d)
  | .receiving, 10 => some (.rxStop d)
  | .sending, 0 => some (.txStart d)
  | .sending, 1 => some (.txData1 d)
  | .sending, 2 => some (.txData2 d)
  | .sending, 3 => some (.txData3 d)
  | .sending, 4 => some (.txData4 d)
  | .sending, 5 => some (.txData5 d)
  | .sending, 6 => some (.txData6 d)
  | .sending, 7 => some (.txData7 d)
  | .sending, 8 => some (.txData8 d)
  | .sending, 9 => some (.txParity d)
  | .sending, 10 => some (.txStop d)
  | .sending, 11 => some (.txAck d)
  | _, _ => none

/-- The pair (MODE, POS) of an EDGE row (R73); none for the rows of the other formats. -/
def Instr.edgeKey : Instr → Option (Mode × Fin 12)
  | .rxStart _ => some (.idle, 0)
  | .rxData1 _ => some (.receiving, 1)
  | .rxData2 _ => some (.receiving, 2)
  | .rxData3 _ => some (.receiving, 3)
  | .rxData4 _ => some (.receiving, 4)
  | .rxData5 _ => some (.receiving, 5)
  | .rxData6 _ => some (.receiving, 6)
  | .rxData7 _ => some (.receiving, 7)
  | .rxData8 _ => some (.receiving, 8)
  | .rxParity _ => some (.receiving, 9)
  | .rxStop _ => some (.receiving, 10)
  | .txStart _ => some (.sending, 0)
  | .txData1 _ => some (.sending, 1)
  | .txData2 _ => some (.sending, 2)
  | .txData3 _ => some (.sending, 3)
  | .txData4 _ => some (.sending, 4)
  | .txData5 _ => some (.sending, 5)
  | .txData6 _ => some (.sending, 6)
  | .txData7 _ => some (.sending, 7)
  | .txData8 _ => some (.sending, 8)
  | .txParity _ => some (.sending, 9)
  | .txStop _ => some (.sending, 10)
  | .txAck _ => some (.sending, 11)
  | .rxFrame .. | .txFrame .. => none
  | .scEmpty | .extPrefix | .breakPrefix | .batOk => none
  | .brkLshift | .brkRshift | .brkCtrl | .brkAlt | .brkCaps | .brkNum | .brkScroll | .brkOther _ => none
  | .extCtrl | .extAlt | .extOther _ => none
  | .makeLshift | .makeRshift | .makeCtrl | .makeAlt | .makeCaps | .makeNum | .makeScroll => none
  | .makeCapsLatched | .makeNumLatched | .makeScrollLatched | .makeOther _ => none
  | .ledCommand .. => none
  | .edge _ | .sendStart | .enqueue _ | .dequeue | .translate _ | .consume | .poll => none
  | .sendCommand _ | .setLeds .. | .status | .init _ => none

/-- The row that `CONSUME` runs for a dequeued byte in the context of the flags `BRK`, `EXT`, `LOCKPEND` (R70, R79:
the rows in the order of their priority, `SC.EMPTY` first). -/
def scRow (cfg : Config) (sc : Byte) (brk ext lockpend : Bool) : Instr :=
  if sc = 0#8 then .scEmpty
  else match classify cfg sc with
    | .extPrefix => .extPrefix
    | .breakPrefix => .breakPrefix
    | .batOk => .batOk
    | .shift =>
      if brk then (if sc = cfg.scLshift then .brkLshift else .brkRshift)
      else if ext then .extOther sc
      else if sc = cfg.scLshift then .makeLshift else .makeRshift
    | .ctrl => if brk then .brkCtrl else if ext then .extCtrl else .makeCtrl
    | .alt => if brk then .brkAlt else if ext then .extAlt else .makeAlt
    | .caps =>
      if brk then .brkCaps else if ext then .extOther sc else if lockpend then .makeCapsLatched else .makeCaps
    | .num =>
      if brk then .brkNum else if ext then .extOther sc else if lockpend then .makeNumLatched else .makeNum
    | .scroll =>
      if brk then .brkScroll else if ext then .extOther sc else if lockpend then .makeScrollLatched else .makeScroll
    | .other => if brk then .brkOther sc else if ext then .extOther sc else .makeOther sc

/-- The scancode byte and the context bits (BRK, EXT, LOCKPEND) of an SC row; a bit the row leaves open (`x` in the
table) is given as 0. None for the rows of the other formats. -/
def Instr.scKey (cfg : Config) : Instr → Option (Byte × Bool × Bool × Bool)
  | .scEmpty => some (0, false, false, false)
  | .extPrefix => some (0xE0, false, false, false)
  | .breakPrefix => some (0xF0, false, false, false)
  | .batOk => some (0xAA, false, false, false)
  | .brkLshift => some (cfg.scLshift, true, false, false)
  | .brkRshift => some (cfg.scRshift, true, false, false)
  | .brkCtrl => some (cfg.scCtrl, true, false, false)
  | .brkAlt => some (cfg.scAlt, true, false, false)
  | .brkCaps => some (cfg.scCaps, true, false, false)
  | .brkNum => some (cfg.scNum, true, false, false)
  | .brkScroll => some (cfg.scScroll, true, false, false)
  | .brkOther sc => some (sc, true, false, false)
  | .extCtrl => some (cfg.scCtrl, false, true, false)
  | .extAlt => some (cfg.scAlt, false, true, false)
  | .extOther sc => some (sc, false, true, false)
  | .makeLshift => some (cfg.scLshift, false, false, false)
  | .makeRshift => some (cfg.scRshift, false, false, false)
  | .makeCtrl => some (cfg.scCtrl, false, false, false)
  | .makeAlt => some (cfg.scAlt, false, false, false)
  | .makeCaps => some (cfg.scCaps, false, false, false)
  | .makeNum => some (cfg.scNum, false, false, false)
  | .makeScroll => some (cfg.scScroll, false, false, false)
  | .makeCapsLatched => some (cfg.scCaps, false, false, true)
  | .makeNumLatched => some (cfg.scNum, false, false, true)
  | .makeScrollLatched => some (cfg.scScroll, false, false, true)
  | .makeOther sc => some (sc, false, false, false)
  | .rxFrame .. | .txFrame .. => none
  | .rxStart _ | .rxData1 _ | .rxData2 _ | .rxData3 _ | .rxData4 _ | .rxData5 _ | .rxData6 _ | .rxData7 _ => none
  | .rxData8 _ | .rxParity _ | .rxStop _ => none
  | .txStart _ | .txData1 _ | .txData2 _ | .txData3 _ | .txData4 _ | .txData5 _ | .txData6 _ | .txData7 _ => none
  | .txData8 _ | .txParity _ | .txStop _ | .txAck _ => none
  | .ledCommand .. => none
  | .edge _ | .sendStart | .enqueue _ | .dequeue | .translate _ | .consume | .poll => none
  | .sendCommand _ | .setLeds .. | .status | .init _ => none

end Sys2Proof
end

