-- ==== Sys2Proof/WellFormed.lean ====
section
/-! DEFINITION. Which parameter records are a machine of the spec (spec/42_translator.md R158, spec/00_scope.md R5),
and which operations are well formed. An operation's operands are typed to their width, so the one check left is the
table's own side condition on the three `OTHER` rows: the operand is of a class the row stands for, and is not the
byte `0x00`, which `SC.EMPTY` takes first (spec/30_encoding.md R65, R68, R79). -/

namespace Sys2Proof

/-- The canonical form of a table: scancodes strictly rising and below 256, no character `0x00` (R44, TC4). -/
abbrev Rom.Wf (t : Rom) : Prop :=
  t.Pairwise (fun a b => a.1 < b.1) ∧ ∀ cell ∈ t, cell.1 < 256 ∧ cell.2 ≠ 0

/-- TC1: `T_NORMAL(0x1C) = 'a'`. -/
abbrev Config.Tc1 (c : Config) : Prop := c.tNormal.read 0x1C = some 0x61

/-- TC2: the shifted table holds the same lowercase letter as the normal table, for every alphabetic scancode. -/
abbrev Config.Tc2 (c : Config) : Prop :=
  ∀ cell ∈ c.tNormal, isLower cell.2 = true → c.tShift.read (BitVec.ofNat 8 cell.1) = some cell.2

/-- TC3: `0x75` has no entry in `T_NORMAL`, and one in `T_NUM` and in `T_EXT`. -/
abbrev Config.Tc3 (c : Config) : Prop :=
  c.tNormal.read 0x75 = none ∧ (c.tNum.read 0x75).isSome = true ∧ (c.tExt.read 0x75).isSome = true

/-- TC4: no table maps a scancode to `0x00`; with it, each table is in canonical form. -/
abbrev Config.Tc4 (c : Config) : Prop := c.tNormal.Wf ∧ c.tShift.Wf ∧ c.tNum.Wf ∧ c.tExt.Wf

/-- TC5: the key codes are distinct from each other and from `0xE0`, `0xF0`, `0xAA`, `0x00`. -/
abbrev Config.Tc5 (c : Config) : Prop :=
  [c.scLshift, c.scRshift, c.scCtrl, c.scAlt, c.scCaps, c.scNum, c.scScroll, 0xE0#8, 0xF0#8, 0xAA#8, 0x00#8].Nodup

/-- A parameter record the spec allows: `N >= 1` (R5) and TC1 to TC5 (R158). -/
abbrev Config.Wf (c : Config) : Prop := 1 ≤ c.n ∧ c.Tc1 ∧ c.Tc2 ∧ c.Tc3 ∧ c.Tc4 ∧ c.Tc5

/-- Well-formed operations under a parameter record. -/
def Instr.wf (cfg : Config) : Instr → Bool
  | .brkOther sc => sc != 0#8 && classify cfg sc == .other
  | .extOther sc => sc != 0#8 && (classify cfg sc).extLooksUp
  | .makeOther sc => sc != 0#8 && classify cfg sc == .other
  | .rxFrame .. | .txFrame .. => true
  | .rxStart _ | .rxData1 _ | .rxData2 _ | .rxData3 _ | .rxData4 _ | .rxData5 _ | .rxData6 _ | .rxData7 _ => true
  | .rxData8 _ | .rxParity _ | .rxStop _ => true
  | .txStart _ | .txData1 _ | .txData2 _ | .txData3 _ | .txData4 _ | .txData5 _ | .txData6 _ | .txData7 _ => true
  | .txData8 _ | .txParity _ | .txStop _ | .txAck _ => true
  | .scEmpty | .extPrefix | .breakPrefix | .batOk => true
  | .brkLshift | .brkRshift | .brkCtrl | .brkAlt | .brkCaps | .brkNum | .brkScroll => true
  | .extCtrl | .extAlt => true
  | .makeLshift | .makeRshift | .makeCtrl | .makeAlt | .makeCaps | .makeNum | .makeScroll => true
  | .makeCapsLatched | .makeNumLatched | .makeScrollLatched => true
  | .ledCommand .. => true
  | .edge _ | .sendStart | .enqueue _ | .dequeue | .translate _ | .consume | .poll => true
  | .sendCommand _ | .setLeds .. | .status | .init _ => true

end Sys2Proof
end

