-- ==== Sys2Proof/Decode.lean ====
section
/-! DEFINITION. The decoder, total on every `Code` and rejecting by name, and the encoder, both written from the
encoding tables of spec/30_encoding.md. The bits of a `Code`, by format:

* `frameRx` (R60): bit `k` is the wire bit at position `k`: start 0, data 8..1, parity 9, stop 10; 15..11 are 0.
* `frameTx` (R61): bit `k` is the wire bit at position `k`: start 0 (a 0), data 8..1, parity 9 (`P` of the data),
  stop 10 (a 1), acknowledge 11; 15..12 are 0.
* `edge` (R73, R79): bits 5..0 are the key `MODE[1:0], POS[3:0]`; bit 6 is the sampled level `d`; 15..7 are 0.
* `sc` (R65, R70): bits 7..0 are the scancode byte; bit 8 is BRK, 9 EXT, 10 LOCKPEND; 15..11 are 0.
* `cmd` (R71): bits 15..8 are the first byte, `CMD_SET_LEDS`; bits 7..0 the second, `00000 caps num scroll`.
* `op` (R79): bits 3..0 are the tag; a level or a kind stands in bit 4, the LED operands in bits 6..4
  (caps, num, scroll), a byte in bits 11..4; the other bits are 0.

Where the table gives an operand no bits, its place is the model's (log entry 7). -/

namespace Sys2Proof

/-- R60. -/
def decodeFrameRx (w : Word16) : Except DecodeError Instr :=
  if w.extractLsb' 11 5 = 0 then
    .ok (.rxFrame (w.getLsbD 0) (w.extractLsb' 1 8) (w.getLsbD 9) (w.getLsbD 10))
  else .error .reservedBits

/-- R61, R63: the block sends only frames with start 0, odd parity and stop 1. -/
def decodeFrameTx (w : Word16) : Except DecodeError Instr :=
  if w.extractLsb' 12 4 = 0 then
    (if w.getLsbD 0 = false ∧ w.getLsbD 9 = parity (w.extractLsb' 1 8) ∧ w.getLsbD 10 = true then
      .ok (.txFrame (w.extractLsb' 1 8) (w.getLsbD 11))
    else .error .notABlockFrame)
  else .error .reservedBits

/-- The key of R79 as a (MODE, POS) pair; the fourth `MODE` code is none (R72 (d)). -/
def keyMode (k : BitVec 2) : Option Mode :=
  match k.toNat with
  | 0 => some .idle
  | 1 => some .receiving
  | 2 => some .sending
  | _ => none

/-- R73. -/
def decodeEdge (w : Word16) : Except DecodeError Instr :=
  if w.extractLsb' 7 9 = 0 then
    match keyMode (w.extractLsb' 4 2) with
    | none => .error .unreachableKey
    | some m =>
      match edgeRow m (w.extractLsb' 0 4).toNat (w.getLsbD 6) with
      | none => .error .unreachableKey
      | some i => .ok i
  else .error .reservedBits

/-- R65, R70. -/
def decodeSc (cfg : Config) (w : Word16) : Except DecodeError Instr :=
  if w.extractLsb' 11 5 = 0 then
    .ok (scRow cfg (w.extractLsb' 0 8) (w.getLsbD 8) (w.getLsbD 9) (w.getLsbD 10))
  else .error .reservedBits

/-- R71. -/
def decodeCmd (cfg : Config) (w : Word16) : Except DecodeError Instr :=
  if w.extractLsb' 8 8 = cfg.cmdSetLeds ∧ w.extractLsb' 3 5 = 0 then
    .ok (.ledCommand (w.getLsbD 2) (w.getLsbD 1) (w.getLsbD 0))
  else .error .notTheLedCommand

/-- An operation with no operand: every bit above the tag is 0. -/
def opNone (w : Word16) (i : Instr) : Except DecodeError Instr :=
  if w.extractLsb' 4 12 = 0 then .ok i else .error .reservedBits

/-- An operation with a one-bit operand in bit 4. -/
def opBit (w : Word16) (i : Bool → Instr) : Except DecodeError Instr :=
  if w.extractLsb' 5 11 = 0 then .ok (i (w.getLsbD 4)) else .error .reservedBits

/-- An operation with three one-bit operands in bits 6 to 4. -/
def opLeds (w : Word16) (i : Bool → Bool → Bool → Instr) : Except DecodeError Instr :=
  if w.extractLsb' 7 9 = 0 then .ok (i (w.getLsbD 6) (w.getLsbD 5) (w.getLsbD 4)) else .error .reservedBits

/-- An operation with a byte operand in bits 11 to 4. -/
def opByte (w : Word16) (i : Byte → Instr) : Except DecodeError Instr :=
  if w.extractLsb' 12 4 = 0 then .ok (i (w.extractLsb' 4 8)) else .error .reservedBits

/-- R75, R79: the tags number the eleven operations. -/
def decodeOp (w : Word16) : Except DecodeError Instr :=
  match (w.extractLsb' 0 4).toNat with
  | 0 => opBit w .edge
  | 1 => opNone w .sendStart
  | 2 => opByte w .enqueue
  | 3 => opNone w .dequeue
  | 4 => opByte w .translate
  | 5 => opNone w .consume
  | 6 => opNone w .poll
  | 7 => opByte w .sendCommand
  | 8 => opLeds w .setLeds
  | 9 => opNone w .status
  | 10 => opBit w (fun c => .init (if c then .call else .reset))
  | _ => .error .unknownTag

/-- The operation a `Code` stands for, or the reason it stands for none. -/
def decode (cfg : Config) (c : Code) : Except DecodeError Instr :=
  match c.fmt with
  | .frameRx => decodeFrameRx c.bits
  | .frameTx => decodeFrameTx c.bits
  | .edge => decodeEdge c.bits
  | .sc => decodeSc cfg c.bits
  | .cmd => decodeCmd cfg c.bits
  | .op => decodeOp c.bits

/-- The bits of a receive frame (R60). -/
def frameRxBits (start : Bool) (b : Byte) (parity stop : Bool) : Word16 :=
  0#5 ++ BitVec.ofBool stop ++ BitVec.ofBool parity ++ b ++ BitVec.ofBool start

/-- The bits of a send frame (R61, R63). -/
def frameTxBits (b : Byte) (ack : Bool) : Word16 :=
  0#4 ++ BitVec.ofBool ack ++ 1#1 ++ BitVec.ofBool (parity b) ++ b ++ 0#1

/-- The bits of an edge response (R79). -/
def edgeBits (m : Mode) (pos : BitVec 4) (d : Bool) : Word16 := 0#9 ++ BitVec.ofBool d ++ m.code ++ pos

/-- The bits of a scancode in its context (R70, R79). -/
def scBits (sc : Byte) (brk ext lockpend : Bool) : Word16 :=
  0#5 ++ BitVec.ofBool lockpend ++ BitVec.ofBool ext ++ BitVec.ofBool brk ++ sc

/-- The bits of the LED update (R71). -/
def cmdBits (cfg : Config) (caps num scroll : Bool) : Word16 := cfg.cmdSetLeds ++ ledByte caps num scroll

/-- The bits of an operation invoked by name: its operand field above its tag (R79). -/
def opBits (tag : BitVec 4) (operand : BitVec 12) : Word16 := operand ++ tag

/-- A one-bit operand. -/
def bitOperand (b : Bool) : BitVec 12 := 0#11 ++ BitVec.ofBool b

/-- A byte operand. -/
def byteOperand (b : Byte) : BitVec 12 := 0#4 ++ b

/-- The LED operands. -/
def ledOperand (caps num scroll : Bool) : BitVec 12 := 0#4 ++ ledByte caps num scroll

/-- The code of an operation, from the same tables. A context bit an SC row leaves open is written 0. -/
def encode (cfg : Config) : Instr → Code
  | .rxFrame st b p t => ⟨.frameRx, frameRxBits st b p t⟩
  | .txFrame b a => ⟨.frameTx, frameTxBits b a⟩
  | .rxStart d => ⟨.edge, edgeBits .idle 0 d⟩
  | .rxData1 d => ⟨.edge, edgeBits .receiving 1 d⟩
  | .rxData2 d => ⟨.edge, edgeBits .receiving 2 d⟩
  | .rxData3 d => ⟨.edge, edgeBits .receiving 3 d⟩
  | .rxData4 d => ⟨.edge, edgeBits .receiving 4 d⟩
  | .rxData5 d => ⟨.edge, edgeBits .receiving 5 d⟩
  | .rxData6 d => ⟨.edge, edgeBits .receiving 6 d⟩
  | .rxData7 d => ⟨.edge, edgeBits .receiving 7 d⟩
  | .rxData8 d => ⟨.edge, edgeBits .receiving 8 d⟩
  | .rxParity d => ⟨.edge, edgeBits .receiving 9 d⟩
  | .rxStop d => ⟨.edge, edgeBits .receiving 10 d⟩
  | .txStart d => ⟨.edge, edgeBits .sending 0 d⟩
  | .txData1 d => ⟨.edge, edgeBits .sending 1 d⟩
  | .txData2 d => ⟨.edge, edgeBits .sending 2 d⟩
  | .txData3 d => ⟨.edge, edgeBits .sending 3 d⟩
  | .txData4 d => ⟨.edge, edgeBits .sending 4 d⟩
  | .txData5 d => ⟨.edge, edgeBits .sending 5 d⟩
  | .txData6 d => ⟨.edge, edgeBits .sending 6 d⟩
  | .txData7 d => ⟨.edge, edgeBits .sending 7 d⟩
  | .txData8 d => ⟨.edge, edgeBits .sending 8 d⟩
  | .txParity d => ⟨.edge, edgeBits .sending 9 d⟩
  | .txStop d => ⟨.edge, edgeBits .sending 10 d⟩
  | .txAck d => ⟨.edge, edgeBits .sending 11 d⟩
  | .scEmpty => ⟨.sc, scBits 0 false false false⟩
  | .extPrefix => ⟨.sc, scBits 0xE0 false false false⟩
  | .breakPrefix => ⟨.sc, scBits 0xF0 false false false⟩
  | .batOk => ⟨.sc, scBits 0xAA false false false⟩
  | .brkLshift => ⟨.sc, scBits cfg.scLshift true false false⟩
  | .brkRshift => ⟨.sc, scBits cfg.scRshift true false false⟩
  | .brkCtrl => ⟨.sc, scBits cfg.scCtrl true false false⟩
  | .brkAlt => ⟨.sc, scBits cfg.scAlt true false false⟩
  | .brkCaps => ⟨.sc, scBits cfg.scCaps true false false⟩
  | .brkNum => ⟨.sc, scBits cfg.scNum true false false⟩
  | .brkScroll => ⟨.sc, scBits cfg.scScroll true false false⟩
  | .brkOther sc => ⟨.sc, scBits sc true false false⟩
  | .extCtrl => ⟨.sc, scBits cfg.scCtrl false true false⟩
  | .extAlt => ⟨.sc, scBits cfg.scAlt false true false⟩
  | .extOther sc => ⟨.sc, scBits sc false true false⟩
  | .makeLshift => ⟨.sc, scBits cfg.scLshift false false false⟩
  | .makeRshift => ⟨.sc, scBits cfg.scRshift false false false⟩
  | .makeCtrl => ⟨.sc, scBits cfg.scCtrl false false false⟩
  | .makeAlt => ⟨.sc, scBits cfg.scAlt false false false⟩
  | .makeCaps => ⟨.sc, scBits cfg.scCaps false false false⟩
  | .makeNum => ⟨.sc, scBits cfg.scNum false false false⟩
  | .makeScroll => ⟨.sc, scBits cfg.scScroll false false false⟩
  | .makeCapsLatched => ⟨.sc, scBits cfg.scCaps false false true⟩
  | .makeNumLatched => ⟨.sc, scBits cfg.scNum false false true⟩
  | .makeScrollLatched => ⟨.sc, scBits cfg.scScroll false false true⟩
  | .makeOther sc => ⟨.sc, scBits sc false false false⟩
  | .ledCommand c n s => ⟨.cmd, cmdBits cfg c n s⟩
  | .edge d => ⟨.op, opBits 0 (bitOperand d)⟩
  | .sendStart => ⟨.op, opBits 1 0⟩
  | .enqueue b => ⟨.op, opBits 2 (byteOperand b)⟩
  | .dequeue => ⟨.op, opBits 3 0⟩
  | .translate sc => ⟨.op, opBits 4 (byteOperand sc)⟩
  | .consume => ⟨.op, opBits 5 0⟩
  | .poll => ⟨.op, opBits 6 0⟩
  | .sendCommand b => ⟨.op, opBits 7 (byteOperand b)⟩
  | .setLeds c n s => ⟨.op, opBits 8 (ledOperand c n s)⟩
  | .status => ⟨.op, opBits 9 0⟩
  | .init .reset => ⟨.op, opBits 10 (bitOperand false)⟩
  | .init .call => ⟨.op, opBits 10 (bitOperand true)⟩

/-- The eight data bits of a frame as the table writes it, first bit leftmost: the leftmost is bit 0 (R60, R61). -/
def tableFrameByte (w : Word16) (last : Nat) : Byte :=
  BitVec.ofBool (w.getLsbD last) ++ BitVec.ofBool (w.getLsbD (last + 1)) ++ BitVec.ofBool (w.getLsbD (last + 2))
    ++ BitVec.ofBool (w.getLsbD (last + 3)) ++ BitVec.ofBool (w.getLsbD (last + 4))
    ++ BitVec.ofBool (w.getLsbD (last + 5)) ++ BitVec.ofBool (w.getLsbD (last + 6))
    ++ BitVec.ofBool (w.getLsbD (last + 7))

/-- The code that a word of spec/opcode_table.json stands for when nothing but its bits and its length is given. The
table's formats overlap (the byte `0x12` is the key of `RX.DATA.2` and the scancode of three SC rows), so a word is
read as the first of these that it can be (log entry 8):
one byte: an edge key (level 0), an operation's tag, a scancode with no prefix pending and the latch clear;
more: the LED update; a frame, its bits as the table writes them, leftmost the most significant: a send frame (its
stop bit 1; the parity bit is computed, it is no operand), a receive frame. -/
def tableCode (nbits w : Nat) : Code :=
  let bits := BitVec.ofNat 16 w
  if nbits ≤ 8 then
    (if w < 64 ∧ (decodeEdge bits).isOk = true then ⟨.edge, bits⟩
    else if 1 ≤ w ∧ w ≤ 10 then ⟨.op, bits⟩
    else ⟨.sc, BitVec.ofNat 16 (w % 256)⟩)
  else if (decodeCmd Config.default bits).isOk = true then ⟨.cmd, bits⟩
  else if w < 2048 then
    (if bits.getLsbD 1 then ⟨.frameTx, frameTxBits (tableFrameByte bits 3) (bits.getLsbD 0)⟩
    else ⟨.frameRx, frameRxBits (bits.getLsbD 10) (tableFrameByte bits 2) false (bits.getLsbD 0)⟩)
  else ⟨.frameRx, bits⟩

/-- The instruction read from a word of spec/opcode_table.json, under the default key codes the table shows. -/
def decodeTableWord (nbits w : Nat) : Option Instr :=
  match decode Config.default (tableCode nbits w) with
  | .ok i => some i
  | .error _ => none

end Sys2Proof
end

