-- ==== Sys2Proof/Machine/State.lean ====
section
/-! DEFINITION. The state of the block (spec/10_state.md R10 to R23) as plain data, the reasons a step can stop, and
the state after reset. The first eight fields are the spec's tuple `(POS, SR, MODE, CLKDRV, DATADRV, Q, F, CMDP)`;
the others are the model's own: the parameters of R5, the inputs still to come, and what the block has shown the
outside (log entries 1, 5, 6). -/

namespace Sys2Proof.Machine

/-- What the block does to a wire (R16, R17): lets the pull-up and the keyboard set it, or pulls it to 0. -/
inductive Drive where
  | released
  | low
deriving DecidableEq, Repr

/-- The ten status flags `F` (R18). -/
structure Flags where
  shift : Bool
  ctrl : Bool
  alt : Bool
  ext : Bool
  brk : Bool
  caps : Bool
  num : Bool
  scroll : Bool
  lockpend : Bool
  bat : Bool
deriving DecidableEq, Repr

/-- The result of `CONSUME` (R156). -/
inductive ConsumeResult where
  | empty
  | nochar
  | char (c : Byte)
deriving DecidableEq, Repr

/-- What an operation shows the outside (R7, R16): the writes of the wire-drive latches in their order, the output
action `RTS`, and the results of the operations that have one. -/
inductive Obs where
  /-- the clock latch is written -/
  | clk (d : Drive)
  /-- the data latch is written -/
  | data (d : Drive)
  /-- the request to send: the clock is held low for `RTS_HOLD` (R107) -/
  | rts (hold : Nat)
  /-- `POLL` returns (R157) -/
  | poll (r : Option Byte)
  /-- `CONSUME`, or the part of it a scancode row stands for, returns (R156) -/
  | consume (r : ConsumeResult)
  /-- `STATUS` returns (R178) -/
  | status (w : Word16)
  /-- `ENQUEUE` performed on its own returns (R121) -/
  | enqueue (ok : Bool)
  /-- `DEQUEUE` performed on its own returns (R123) -/
  | dequeue (b : Byte)
  /-- `TRANSLATE` performed on its own returns (R130) -/
  | translate (r : Option Byte) (ledreq : Bool)
deriving DecidableEq, Repr

/-- The state of the machine. -/
structure State where
  /-- Frame Position, 0 to 11 (R11); the values 12 to 15 are typed away (R14, log entry 29) -/
  pos : Fin 12
  /-- Shift Register (R12) -/
  sr : Byte
  /-- Transfer Mode (R13) -/
  mode : Mode
  /-- clock-wire drive (R16) -/
  clkdrv : Drive
  /-- data-wire drive (R17) -/
  datadrv : Drive
  /-- Scancode Queue, oldest first (R15) -/
  q : List Byte
  /-- status flags (R18) -/
  flags : Flags
  /-- command-pending list, next to be sent first (R21) -/
  cmdp : List Byte
  /-- model's own: the parameters of R5, which no operation writes (log entry 6) -/
  cfg : Config
  /-- model's own: the line's inputs still to come, edges and reset, oldest first (log entry 1) -/
  events : List Code
  /-- model's own: the foreground's operations still to come or held, oldest first (log entries 1, 4) -/
  calls : List Code
  /-- model's own: whose turn it is, next first; it fixes one interleaving of the two agents (R48, log entry 1) -/
  turns : List Agent
  /-- model's own: what the block has shown the outside, newest first (R7, log entry 5) -/
  trace : List Obs
deriving DecidableEq, Repr

/-- No step faults: no operation of the block raises, traps or stops (R190), and no access can be misaligned or miss
(R46, R43). The type has no constructor, so a fault cannot be built. Nobody raises one; safe. -/
inductive Fault
deriving DecidableEq, Repr

/-- Why a step gives no next state. -/
inductive Refusal where
  /-- Raised by `exec`'s arm of an operation that has no meaning yet; no arm of this model raises it. Safe. -/
  | notModelled (mnemonic : String)
  /-- Raised by `step` when the code it fetches is no operation of the table (decoding is total and rejects by name).
  The block never meets one: its codes are composed by its own state and by typed calls (log entry 34). Safe. -/
  | illegalCode (e : DecodeError)
  /-- Raised by `step` when the list of the agent whose turn it is holds an operation of the other agent: there is one
  foreground thread and one interrupt context, and a second caller is refused (R182, R231, U11; log entry 33). Safe. -/
  | otherAgent
  /-- Raised by `step` when it comes to an operation that is only a part of another one and is not scheduled on its own
  (R75, R73): `ENQUEUE`, `DEQUEUE`, `TRANSLATE`, the scancode rows, `TX.START` (log entry 12). Safe. -/
  | insideOnly
  /-- Raised by an EDGE row run in another (MODE, POS) pair than its own, by an SC row run in another prefix context
  or with a byte of another class, and by `TXFRAME` of a byte that is not the head of `CMDP`: the row is not the one
  the state selects, and the spec gives it no effect there (R73, R130, R107). Safe. -/
  | notSelected
  /-- Raised by `EDGE` in a (MODE, POS) pair that R73 does not list, for which the rules give no meaning and a model
  should refuse (R14, U9). Safe. -/
  | unreachablePair
  /-- Raised by `step` in a state that breaks R14: a model should refuse such a start state (R14, U9). Safe. -/
  | brokenState
deriving DecidableEq, Repr

/-- The outcome of an operation or a step. -/
abbrev Result := Host.Outcome State Fault Refusal

/-- All ten flags 0 (R23). -/
def Flags.zero : Flags := ⟨false, false, false, false, false, false, false, false, false, false⟩

/-- The state after reset (R23, R210): Idle at position 0, both wires released, everything empty or 0; the parameters
are the spec's default values and nothing is waiting to be performed. -/
def State.reset : State :=
  { pos := 0
    sr := 0x00
    mode := .idle
    clkdrv := .released
    datadrv := .released
    q := []
    flags := Flags.zero
    cmdp := []
    cfg := Config.default
    events := []
    calls := []
    turns := []
    trace := [] }

end Sys2Proof.Machine
end

