-- ==== Sys2Proof/Machine/Flags.lean ====
section
/-! DEFINITION. Everything the status flags do (spec/42_translator.md R131 to R155, spec/10_state.md R18 to R20): the
status word, case folding, the choice of table, and one function per effect on the flags that a scancode row has. -/

namespace Sys2Proof.Machine

/-- The status word (R20, R178):
`{0b000000, BAT, LOCKPEND, SCROLL, NUM, CAPS, BRK, EXT, ALT, CTRL, SHIFT}`. -/
def Flags.word (f : Flags) : Word16 :=
  0#6 ++ BitVec.ofBool f.bat ++ BitVec.ofBool f.lockpend ++ BitVec.ofBool f.scroll ++ BitVec.ofBool f.num
    ++ BitVec.ofBool f.caps ++ BitVec.ofBool f.brk ++ BitVec.ofBool f.ext ++ BitVec.ofBool f.alt
    ++ BitVec.ofBool f.ctrl ++ BitVec.ofBool f.shift

/-- The LED byte of the flags (R155). -/
def Flags.leds (f : Flags) : Byte := ledByte f.caps f.num f.scroll

/-- `Fold(c)` (R152): a lowercase letter becomes uppercase exactly when Shift XOR CapsLock. -/
def Flags.fold (f : Flags) (c : Byte) : Byte :=
  if isLower c then (if (f.shift ^^ f.caps) then c - 0x20#8 else c) else c

/-- The one table that a plain key is looked up in (R151): Shift wins over NumLock. -/
def Flags.table (f : Flags) (cfg : Config) : Rom :=
  if f.shift then cfg.tShift else if f.num then cfg.tNum else cfg.tNormal

/-- What `TRANSLATE` yields (R130): the flags it leaves, the character or none, and the LED request. -/
structure Translation where
  flags : Flags
  char : Option Byte
  ledreq : Bool
deriving DecidableEq, Repr

/-- No character, no LED request. -/
def Flags.silent (f : Flags) : Translation := ⟨f, none, false⟩

/-- R131. -/
def Flags.onExtPrefix (f : Flags) : Translation := Flags.silent { f with ext := true }

/-- R132. -/
def Flags.onBreakPrefix (f : Flags) : Translation := Flags.silent { f with brk := true }

/-- R133. -/
def Flags.onBat (f : Flags) : Translation := Flags.silent { f with bat := true }

/-- The common part of every break (R134). -/
def Flags.endBreak (f : Flags) : Flags := { f with brk := false, ext := false }

/-- R135. -/
def Flags.onBreakShift (f : Flags) : Translation := Flags.silent { f.endBreak with shift := false }

/-- R136. -/
def Flags.onBreakCtrl (f : Flags) : Translation := Flags.silent { f.endBreak with ctrl := false }

/-- R137. -/
def Flags.onBreakAlt (f : Flags) : Translation := Flags.silent { f.endBreak with alt := false }

/-- R138: one latch for the three lock keys. -/
def Flags.onBreakLock (f : Flags) : Translation := Flags.silent { f.endBreak with lockpend := false }

/-- R139. -/
def Flags.onBreakOther (f : Flags) : Translation := Flags.silent f.endBreak

/-- The common part of every extended make (R140). -/
def Flags.endExt (f : Flags) : Flags := { f with ext := false }

/-- R141. -/
def Flags.onExtCtrl (f : Flags) : Translation := Flags.silent { f.endExt with ctrl := true }

/-- R142. -/
def Flags.onExtAlt (f : Flags) : Translation := Flags.silent { f.endExt with alt := true }

/-- R143: the character as `T_EXT` gives it, never folded; no entry, no character (R153). -/
def Flags.onExtOther (f : Flags) (cfg : Config) (sc : Byte) : Translation :=
  ⟨f.endExt, cfg.tExt.read sc, false⟩

/-- R144. -/
def Flags.onMakeShift (f : Flags) : Translation := Flags.silent { f with shift := true }

/-- R145. -/
def Flags.onMakeCtrl (f : Flags) : Translation := Flags.silent { f with ctrl := true }

/-- R146. -/
def Flags.onMakeAlt (f : Flags) : Translation := Flags.silent { f with alt := true }

/-- R147. -/
def Flags.onMakeCaps (f : Flags) : Translation := ⟨{ f with caps := !f.caps, lockpend := true }, none, true⟩

/-- R148. -/
def Flags.onMakeNum (f : Flags) : Translation := ⟨{ f with num := !f.num, lockpend := true }, none, true⟩

/-- R149. -/
def Flags.onMakeScroll (f : Flags) : Translation := ⟨{ f with scroll := !f.scroll, lockpend := true }, none, true⟩

/-- R151 to R153, and R150 for a lock key with the latch set: one lookup, folded. -/
def Flags.onLookup (f : Flags) (cfg : Config) (sc : Byte) : Translation :=
  ⟨f, ((f.table cfg).read sc).map f.fold, false⟩

/-- Break context (R134 to R139), by class. -/
def Flags.onBreak (f : Flags) : ScClass → Translation
  | .shift => f.onBreakShift
  | .ctrl => f.onBreakCtrl
  | .alt => f.onBreakAlt
  | .caps | .num | .scroll => f.onBreakLock
  | .other => f.onBreakOther
  | .extPrefix => f.onExtPrefix
  | .breakPrefix => f.onBreakPrefix
  | .batOk => f.onBat

/-- Extended context (R140 to R143), by class. -/
def Flags.onExtended (f : Flags) (cfg : Config) (sc : Byte) : ScClass → Translation
  | .ctrl => f.onExtCtrl
  | .alt => f.onExtAlt
  | .shift | .caps | .num | .scroll | .other => f.onExtOther cfg sc
  | .extPrefix => f.onExtPrefix
  | .breakPrefix => f.onBreakPrefix
  | .batOk => f.onBat

/-- Plain make (R144 to R151), by class. -/
def Flags.onPlain (f : Flags) (cfg : Config) (sc : Byte) : ScClass → Translation
  | .shift => f.onMakeShift
  | .ctrl => f.onMakeCtrl
  | .alt => f.onMakeAlt
  | .caps => if f.lockpend then f.onLookup cfg sc else f.onMakeCaps
  | .num => if f.lockpend then f.onLookup cfg sc else f.onMakeNum
  | .scroll => if f.lockpend then f.onLookup cfg sc else f.onMakeScroll
  | .other => f.onLookup cfg sc
  | .extPrefix => f.onExtPrefix
  | .breakPrefix => f.onBreakPrefix
  | .batOk => f.onBat

/-- `TRANSLATE(sc)` (R130): the three fixed bytes first, then `BRK`, then `EXT`. Total on every byte and flags. -/
def translateByte (cfg : Config) (sc : Byte) (f : Flags) : Translation :=
  if sc = 0xE0#8 then f.onExtPrefix
  else if sc = 0xF0#8 then f.onBreakPrefix
  else if sc = 0xAA#8 then f.onBat
  else if f.brk then f.onBreak (classify cfg sc)
  else if f.ext then f.onExtended cfg sc (classify cfg sc)
  else f.onPlain cfg sc (classify cfg sc)

end Sys2Proof.Machine
end

