-- ==== Sys2Proof/Machine/Operands.lean ====
section
/-! DEFINITION. The operand forms of the block. An operation's operands stand in the operation itself, but for three
that the state supplies: the byte at the head of the queue (`CONSUME`, `DEQUEUE`), the byte at the head of `CMDP`
(`SEND_START`, `TXFRAME`), and the bit of `SR` at the present position (`TX.DATA`, spec/20_memory.md R41). What each
receive bit becomes is spec/20_memory.md R40. -/

namespace Sys2Proof.Machine

/-- The byte `Dequeue()` would return: the oldest entry, or the sentinel `0x00` (spec/41_queue.md R123). -/
def State.headByte (s : State) : Byte :=
  match s.q with
  | [] => 0x00
  | b :: _ => b

/-- The next command byte to be sent, if one is pending (spec/40_line_engine.md R107). -/
def State.pendingByte (s : State) : Option Byte :=
  match s.cmdp with
  | [] => none
  | b :: _ => some b

/-- `SR | (zext_8(d) << i)`: the sampled level as bit `i` of the byte (R40, R92). -/
def orBit (sr : Byte) (i : Nat) (d : Bool) : Byte := sr ||| (zext8 d <<< i)

/-- How a bit is put on an open-drain wire: 1 releases it, 0 pulls it low (spec/10_state.md R17, D10). -/
def driveOf (b : Bool) : Drive := if b then .released else .low

/-- The level of the data wire: 0 when the block pulls it low or the keyboard does, 1 otherwise (R17). -/
def State.dataWire (s : State) (keyboardPullsLow : Bool) : Bool :=
  match s.datadrv with
  | .low => false
  | .released => !keyboardPullsLow

/-- The (MODE, POS) pair is this one (R73). -/
def State.atKey (s : State) (m : Mode) (p : Fin 12) : Bool := s.mode == m && s.pos == p

end Sys2Proof.Machine
end

