-- ==== Sys2Proof/Machine/Ops.lean ====
section
/-! DEFINITION. The named operations over the state that the meanings share: observations, the wire-drive latches,
the queue, the hold, the responses to a clock edge, taking the edge interrupt, starting a send, the LED update, one
`CONSUME`, and `INIT`. -/

namespace Sys2Proof.Machine

/-- The block shows `o` to the outside. -/
def State.observe (s : State) (o : Obs) : State := { s with trace := o :: s.trace }

/-- `release CLK` and `drive CLK low` (R8): the latch takes the value, and the write shows on the wire. -/
def State.driveClk (s : State) (d : Drive) : State := { s with clkdrv := d, trace := .clk d :: s.trace }

/-- `release DATA` and `drive DATA low` (R8). -/
def State.driveData (s : State) (d : Drive) : State := { s with datadrv := d, trace := .data d :: s.trace }

/-- `Enqueue(b)` (spec/41_queue.md R121): appended if there is room, else discarded with the queue unchanged. -/
def State.enqueue (s : State) (b : Byte) : Bool × State :=
  if s.q.length < s.cfg.n then (true, { s with q := s.q ++ [b] }) else (false, s)

/-- `Dequeue()` (R123): the oldest entry, removed, or `0x00` with the queue unchanged. -/
def State.dequeue (s : State) : Byte × State := (s.headByte, { s with q := s.q.tail })

/-- An operation that is not enabled is held (R8, spec/43_host_ops.md R171): it has none of its effect and stays the
foreground's next operation, to be performed once it is enabled (log entry 4). -/
def State.hold (s : State) (i : Instr) : State := { s with calls := encode s.cfg i :: s.calls }

/-- The foreground is free: no send is waiting to be started (R171). -/
def State.free (s : State) : Bool := s.cmdp.isEmpty

/-- Whether a foreground operation is held, which the block shows (spec/00_scope.md R7 (d)): while `CMDP != []` the
foreground is in the wait (R171), whatever it is about to call. -/
def State.foregroundHeld (s : State) : Bool := !s.free

/-- A foreground operation that is enabled when `CMDP = []` and held otherwise (R75, R171). -/
def State.whenFree (s : State) (i : Instr) (go : Result) : Result := if s.free then go else .next (s.hold i)

/-- When an operation is enabled (the table of R75); a held operation waits. -/
def held (i : Instr) (s : State) : Bool :=
  match i with
  | .sendStart => s.free || s.mode != .idle
  | .txFrame .. => s.free || s.mode != .idle
  | .consume | .poll | .sendCommand _ | .setLeds .. | .status | .init .call => !s.free
  | .ledCommand .. => !s.free
  | .scEmpty | .extPrefix | .breakPrefix | .batOk => !s.free
  | .brkLshift | .brkRshift | .brkCtrl | .brkAlt | .brkCaps | .brkNum | .brkScroll | .brkOther _ => !s.free
  | .extCtrl | .extAlt | .extOther _ => !s.free
  | .makeLshift | .makeRshift | .makeCtrl | .makeAlt | .makeCaps | .makeNum | .makeScroll => !s.free
  | .makeCapsLatched | .makeNumLatched | .makeScrollLatched | .makeOther _ => !s.free
  | .edge _ | .enqueue _ | .dequeue | .translate _ | .init .reset | .rxFrame .. => false
  | .rxStart _ | .rxData1 _ | .rxData2 _ | .rxData3 _ | .rxData4 _ | .rxData5 _ | .rxData6 _ | .rxData7 _ => false
  | .rxData8 _ | .rxParity _ | .rxStop _ => false
  | .txStart _ | .txData1 _ | .txData2 _ | .txData3 _ | .txData4 _ | .txData5 _ | .txData6 _ | .txData7 _ => false
  | .txData8 _ | .txParity _ | .txStop _ | .txAck _ => false

/-- When the foreground's turn passes an operation over: it is held, or it is a part of `CONSUME`, `DEQUEUE` or
`TRANSLATE`, while the foreground is in the wait (R171). There is one thread (R182, R231), so while a call waits none
but the sends can come before it (log entry 4); once the foreground is free, a part comes up and is refused
(log entry 12). -/
def waits (i : Instr) (s : State) : Bool :=
  held i s ||
    (match i with
    | .dequeue | .translate _ => !s.free
    | _ => false)

/-! ### The responses to a clock edge (spec/40_line_engine.md R91 to R104), each on the state it is selected in -/

/-- R91. -/
def State.startReceive (s : State) : State := { s with sr := 0x00, mode := .receiving, pos := 1 }

/-- R92, at position `i + 1`. -/
def State.receiveBit (s : State) (i : Fin 8) (d : Bool) : State :=
  { s with sr := orBit s.sr i.val d, pos := ⟨i.val + 2, by omega⟩ }

/-- R93: the parity bit is not compared with anything. -/
def State.receiveParity (s : State) : State := { s with pos := 10 }

/-- R94: the result of `Enqueue` is discarded and the stop bit is not checked. -/
def State.endReceive (s : State) : State := { (s.enqueue s.sr).2 with pos := 0, mode := .idle }

/-- R100: the data wire stays as `SEND_START` left it. -/
def State.passStart (s : State) : State := { s with pos := 1 }

/-- R101, at position `i + 1`: `SR` is read by index and not changed. -/
def State.sendBit (s : State) (i : Fin 8) : State :=
  { s.driveData (driveOf (s.sr.getLsbD i.val)) with pos := ⟨i.val + 2, by omega⟩ }

/-- R102. -/
def State.sendParity (s : State) : State := { s.driveData (driveOf (parity s.sr)) with pos := 10 }

/-- R103. -/
def State.sendStop (s : State) : State := { s.driveData .released with pos := 11 }

/-- R104: the acknowledge level is ignored. -/
def State.endSend (s : State) : State := { s with mode := .idle, pos := 0 }

/-- An EDGE row is a response only in its own (MODE, POS) pair (R73). -/
def State.inPair (s : State) (m : Mode) (p : Fin 12) (t : State) : Result :=
  if s.atKey m p then .next t else .refused .notSelected

/-- Taking the one interrupt, the active edge of the clock wire with level `d` (R90, spec/60_exceptions.md R195,
R198): nothing is saved, no mode of privilege changes, and the response is the one (MODE, POS) selects (R73). There
is no return operation (R199): the response ends and the foreground goes on. In a pair R73 does not list there is no
response (R14, U9). -/
def State.takeEdge (s : State) (d : Bool) : Result :=
  match s.mode, s.pos.val with
  | .idle, 0 => .next s.startReceive
  | .receiving, 1 => .next (s.receiveBit 0 d)
  | .receiving, 2 => .next (s.receiveBit 1 d)
  | .receiving, 3 => .next (s.receiveBit 2 d)
  | .receiving, 4 => .next (s.receiveBit 3 d)
  | .receiving, 5 => .next (s.receiveBit 4 d)
  | .receiving, 6 => .next (s.receiveBit 5 d)
  | .receiving, 7 => .next (s.receiveBit 6 d)
  | .receiving, 8 => .next (s.receiveBit 7 d)
  | .receiving, 9 => .next s.receiveParity
  | .receiving, 10 => .next s.endReceive
  | .sending, 0 => .next s.passStart
  | .sending, 1 => .next (s.sendBit 0)
  | .sending, 2 => .next (s.sendBit 1)
  | .sending, 3 => .next (s.sendBit 2)
  | .sending, 4 => .next (s.sendBit 3)
  | .sending, 5 => .next (s.sendBit 4)
  | .sending, 6 => .next (s.sendBit 5)
  | .sending, 7 => .next (s.sendBit 6)
  | .sending, 8 => .next (s.sendBit 7)
  | .sending, 9 => .next s.sendParity
  | .sending, 10 => .next s.sendStop
  | .sending, 11 => .next s.endSend
  | _, _ => .refused .unreachablePair

/-- Consecutive edges with nothing between them (R77). -/
def State.takeEdges (s : State) : List Bool → Result
  | [] => .next s
  | d :: ds =>
    match s.takeEdge d with
    | .next t => t.takeEdges ds
    | .fault r => .fault r
    | .refused r => .refused r

/-! ### The foreground -/

/-- `SEND_START` for the byte `b` with `rest` left in `CMDP` (R107): the request to send on the clock wire, the start
bit on the data wire, the clock released, and the response to the edge the block made itself (R196). -/
def State.beginSend (s : State) (b : Byte) (rest : List Byte) : State :=
  let s1 := { s with cmdp := rest, sr := b, mode := .sending, pos := 0 }
  let s2 := (s1.driveClk .low).observe (.rts s.cfg.rtsHold)
  let s3 := (s2.driveData .low).driveClk .released
  s3.passStart

/-- The LED update put in `CMDP` (R71, R155, R175). -/
def State.putLeds (s : State) (caps num scroll : Bool) : State :=
  { s with cmdp := [s.cfg.cmdSetLeds, ledByte caps num scroll] }

/-- The part of `CONSUME` that follows `TRANSLATE` (R156): the flags are written, a requested LED update goes to
`CMDP` with the flags after the toggle, and the result is the character or `nochar`. -/
def State.finishConsume (s : State) (t : Translation) : ConsumeResult × State :=
  let s1 := { s with flags := t.flags }
  let s2 := if t.ledreq then s1.putLeds t.flags.caps t.flags.num t.flags.scroll else s1
  (match t.char with
    | some c => .char c
    | none => .nochar, s2)

/-- One `CONSUME` (R156). -/
def State.consumeOne (s : State) : ConsumeResult × State :=
  let (sc, s1) := s.dequeue
  if sc = 0x00 then (.empty, s1) else s1.finishConsume (translateByte s1.cfg sc s1.flags)

/-- A scancode row: what `CONSUME` does with the byte the row stands for, in the context the row stands for. -/
def State.runScRow (s : State) (i : Instr) (selected : Bool) (t : Translation) : Result :=
  s.whenFree i
    (if selected then .next ((s.finishConsume t).2.observe (.consume (s.finishConsume t).1))
     else .refused .notSelected)

/-- Break context (R70). -/
def State.inBreak (s : State) : Bool := s.flags.brk

/-- Extended make context (R70). -/
def State.inExtended (s : State) : Bool := !s.flags.brk && s.flags.ext

/-- Plain make context (R70). -/
def State.inPlain (s : State) : Bool := !s.flags.brk && !s.flags.ext

/-- Every piece of the block's state takes its reset value (spec/43_host_ops.md R180). The inputs still to come and
what has been shown are not the block's. The model's choice (log entry 14): a `POLL` that has begun when the reset input
falls between two of its steps is one of the calls still to come, and goes on after the reset. -/
def State.initialise (s : State) : State :=
  let s1 := (s.driveClk .released).driveData .released
  { s1 with pos := 0, sr := 0x00, mode := .idle, q := [], flags := Flags.zero, cmdp := [] }

end Sys2Proof.Machine
end

