-- ==== Sys2Proof/Machine/HostOps.lean ====
section
/-! DEFINITION. The operations invoked by name (spec/30_encoding.md R75): the edge, the start of a send, the queue's
two accesses, the translator, and the host's operations (spec/40_line_engine.md R90, R107, spec/41_queue.md,
spec/42_translator.md R156, R157, spec/43_host_ops.md); and the LED command (R71). -/

namespace Sys2Proof.Machine

/-- `EDGE(d)` (R90): always enabled. -/
def execEdge (d : Bool) (s : State) : Result := s.takeEdge d

/-- `SEND_START` (R107): enabled when `CMDP != []` and `MODE = Idle`, otherwise held. -/
def execSendStart (s : State) : Result :=
  match s.cmdp with
  | [] => .next (s.hold .sendStart)
  | b :: rest => if s.mode = .idle then .next (s.beginSend b rest) else .next (s.hold .sendStart)

/-- `ENQUEUE(b)` (R121), performed on its own, with its result shown (log entry 12). -/
def execEnqueue (b : Byte) (s : State) : Result := .next ((s.enqueue b).2.observe (.enqueue (s.enqueue b).1))

/-- `DEQUEUE` (R123), performed on its own, with its result shown (log entry 12). -/
def execDequeue (s : State) : Result := .next (s.dequeue.2.observe (.dequeue s.dequeue.1))

/-- `TRANSLATE(sc)` (R130), performed on its own: it writes `F`, and its results are shown; the LED update is
`CONSUME`'s (R156, log entry 12). -/
def execTranslate (sc : Byte) (s : State) : Result :=
  let t := translateByte s.cfg sc s.flags
  .next (({ s with flags := t.flags } : State).observe (.translate t.char t.ledreq))

/-- `CONSUME` (R156): enabled when `CMDP = []`, otherwise held. -/
def execConsume (s : State) : Result :=
  s.whenFree .consume (.next (s.consumeOne.2.observe (.consume s.consumeOne.1)))

/-- One turn of `POLL`'s loop (R157): a `CONSUME`, and on `nochar` the call goes round again, as the foreground's
next operation, so that edges and `SEND_START` can come between (log entry 13). -/
def execPoll (s : State) : Result :=
  s.whenFree .poll
    (match s.consumeOne with
    | (.empty, t) => .next (t.observe (.poll none))
    | (.char c, t) => .next (t.observe (.poll (some c)))
    | (.nochar, t) => .next (t.hold .poll))

/-- `SEND_COMMAND(b)` (R172): the byte waits in `CMDP` for `SEND_START`. -/
def execSendCommand (b : Byte) (s : State) : Result :=
  s.whenFree (.sendCommand b) (.next { s with cmdp := [b] })

/-- `SET_LEDS(caps, num, scroll)` (R175): no flag is written. -/
def execSetLeds (caps num scroll : Bool) (s : State) : Result :=
  s.whenFree (.setLeds caps num scroll) (.next (s.putLeds caps num scroll))

/-- `SETLEDS`, the command the block builds (R71, R155): the two bytes go to `CMDP` (log entry 12). -/
def execLedCommand (caps num scroll : Bool) (s : State) : Result :=
  s.whenFree (.ledCommand caps num scroll) (.next (s.putLeds caps num scroll))

/-- `STATUS` (R178): reading changes nothing. -/
def execStatus (s : State) : Result := s.whenFree .status (.next (s.observe (.status s.flags.word)))

/-- `INIT` (R180): always enabled as the reset input, enabled when `CMDP = []` as the call `keyboard_init()`. -/
def execInit (kind : InitKind) (s : State) : Result :=
  match kind with
  | .reset => .next s.initialise
  | .call => s.whenFree (.init .call) (.next s.initialise)

end Sys2Proof.Machine
end

