-- ==== Sys2Proof/Machine/LineEngine.lean ====
section
/-! DEFINITION. The line engine's rows: the responses to a clock edge (spec/40_line_engine.md R91 to R104), each
selected by its (MODE, POS) pair (spec/30_encoding.md R73), and the two whole frames (R60, R61). -/

namespace Sys2Proof.Machine

/-- `RX.START` (R91): `d` is not checked. -/
def execRxStart (_d : Bool) (s : State) : Result := s.inPair .idle 0 s.startReceive

/-- `RX.DATA.1` (R92). -/
def execRxData1 (d : Bool) (s : State) : Result := s.inPair .receiving 1 (s.receiveBit 0 d)

/-- `RX.DATA.2` (R92). -/
def execRxData2 (d : Bool) (s : State) : Result := s.inPair .receiving 2 (s.receiveBit 1 d)

/-- `RX.DATA.3` (R92). -/
def execRxData3 (d : Bool) (s : State) : Result := s.inPair .receiving 3 (s.receiveBit 2 d)

/-- `RX.DATA.4` (R92). -/
def execRxData4 (d : Bool) (s : State) : Result := s.inPair .receiving 4 (s.receiveBit 3 d)

/-- `RX.DATA.5` (R92). -/
def execRxData5 (d : Bool) (s : State) : Result := s.inPair .receiving 5 (s.receiveBit 4 d)

/-- `RX.DATA.6` (R92). -/
def execRxData6 (d : Bool) (s : State) : Result := s.inPair .receiving 6 (s.receiveBit 5 d)

/-- `RX.DATA.7` (R92). -/
def execRxData7 (d : Bool) (s : State) : Result := s.inPair .receiving 7 (s.receiveBit 6 d)

/-- `RX.DATA.8` (R92). -/
def execRxData8 (d : Bool) (s : State) : Result := s.inPair .receiving 8 (s.receiveBit 7 d)

/-- `RX.PARITY` (R93): `d` is ignored. -/
def execRxParity (_d : Bool) (s : State) : Result := s.inPair .receiving 9 s.receiveParity

/-- `RX.STOP` (R94): `d` is ignored. -/
def execRxStop (_d : Bool) (s : State) : Result := s.inPair .receiving 10 s.endReceive

/-- `TX.START` (R100): the response `SEND_START` includes; `d` is ignored. -/
def execTxStart (_d : Bool) (s : State) : Result := s.inPair .sending 0 s.passStart

/-- `TX.DATA.1` (R101): `d` is ignored. -/
def execTxData1 (_d : Bool) (s : State) : Result := s.inPair .sending 1 (s.sendBit 0)

/-- `TX.DATA.2` (R101): `d` is ignored. -/
def execTxData2 (_d : Bool) (s : State) : Result := s.inPair .sending 2 (s.sendBit 1)

/-- `TX.DATA.3` (R101): `d` is ignored. -/
def execTxData3 (_d : Bool) (s : State) : Result := s.inPair .sending 3 (s.sendBit 2)

/-- `TX.DATA.4` (R101): `d` is ignored. -/
def execTxData4 (_d : Bool) (s : State) : Result := s.inPair .sending 4 (s.sendBit 3)

/-- `TX.DATA.5` (R101): `d` is ignored. -/
def execTxData5 (_d : Bool) (s : State) : Result := s.inPair .sending 5 (s.sendBit 4)

/-- `TX.DATA.6` (R101): `d` is ignored. -/
def execTxData6 (_d : Bool) (s : State) : Result := s.inPair .sending 6 (s.sendBit 5)

/-- `TX.DATA.7` (R101): `d` is ignored. -/
def execTxData7 (_d : Bool) (s : State) : Result := s.inPair .sending 7 (s.sendBit 6)

/-- `TX.DATA.8` (R101): `d` is ignored. -/
def execTxData8 (_d : Bool) (s : State) : Result := s.inPair .sending 8 (s.sendBit 7)

/-- `TX.PARITY` (R102): `d` is ignored. -/
def execTxParity (_d : Bool) (s : State) : Result := s.inPair .sending 9 s.sendParity

/-- `TX.STOP` (R103): `d` is ignored. -/
def execTxStop (_d : Bool) (s : State) : Result := s.inPair .sending 10 s.sendStop

/-- `TX.ACK` (R104): the acknowledge level `d` is ignored. -/
def execTxAck (_d : Bool) (s : State) : Result := s.inPair .sending 11 s.endSend

/-- `RXFRAME` (R60, R77): the eleven edges of a device-to-host frame with nothing between them (log entry 11). -/
def execRxFrame (start : Bool) (b : Byte) (parity stop : Bool) (s : State) : Result :=
  s.takeEdges (start :: (wireBits b ++ [parity, stop]))

/-- The frame begins: `SEND_START` with the byte `b`, then the eleven edges the keyboard supplies, the levels being
those the block itself puts on the wire and, last, the acknowledge (R61, R105). -/
def State.sendFrame (s : State) (b : Byte) (rest : List Byte) (ack : Bool) : Result :=
  (s.beginSend b rest).takeEdges (wireBits b ++ [parity b, true, ack])

/-- `TXFRAME` (R61, R105): the frame of the byte at the head of `CMDP`, held until `SEND_START` is enabled (R107,
log entry 11). -/
def execTxFrame (b : Byte) (ack : Bool) (s : State) : Result :=
  match s.cmdp with
  | [] => .next (s.hold (.txFrame b ack))
  | c :: rest =>
    if s.mode = .idle then (if c = b then s.sendFrame b rest ack else .refused .notSelected)
    else .next (s.hold (.txFrame b ack))

end Sys2Proof.Machine
end

