-- ==== Sys2Proof/Machine/Scancodes.lean ====
section
/-! DEFINITION. The scancode rows (spec/42_translator.md R131 to R153): what `CONSUME` does with a byte of the row's
class in the row's prefix context (spec/30_encoding.md R65, R70, R79). `translateByte` dispatches over the same flag
functions (Sys2Proof/Machine/Flags.lean). -/

namespace Sys2Proof.Machine

/-- `SC.EMPTY` (R156): the byte `0x00` is taken for "empty"; no flag changes. -/
def execScEmpty (s : State) : Result := s.whenFree .scEmpty (.next (s.observe (.consume .empty)))

/-- `EXT_PREFIX` (R131). -/
def execExtPrefix (s : State) : Result := s.runScRow .extPrefix true s.flags.onExtPrefix

/-- `BREAK_PREFIX` (R132). -/
def execBreakPrefix (s : State) : Result := s.runScRow .breakPrefix true s.flags.onBreakPrefix

/-- `BAT_OK` (R133). -/
def execBatOk (s : State) : Result := s.runScRow .batOk true s.flags.onBat

/-- `BRK.LSHIFT` (R134, R135). -/
def execBrkLshift (s : State) : Result := s.runScRow .brkLshift s.inBreak s.flags.onBreakShift

/-- `BRK.RSHIFT` (R134, R135). -/
def execBrkRshift (s : State) : Result := s.runScRow .brkRshift s.inBreak s.flags.onBreakShift

/-- `BRK.CTRL` (R134, R136). -/
def execBrkCtrl (s : State) : Result := s.runScRow .brkCtrl s.inBreak s.flags.onBreakCtrl

/-- `BRK.ALT` (R134, R137). -/
def execBrkAlt (s : State) : Result := s.runScRow .brkAlt s.inBreak s.flags.onBreakAlt

/-- `BRK.CAPS` (R134, R138). -/
def execBrkCaps (s : State) : Result := s.runScRow .brkCaps s.inBreak s.flags.onBreakLock

/-- `BRK.NUM` (R134, R138). -/
def execBrkNum (s : State) : Result := s.runScRow .brkNum s.inBreak s.flags.onBreakLock

/-- `BRK.SCROLL` (R134, R138). -/
def execBrkScroll (s : State) : Result := s.runScRow .brkScroll s.inBreak s.flags.onBreakLock

/-- `BRK.OTHER` (R134, R139). -/
def execBrkOther (sc : Byte) (s : State) : Result :=
  s.runScRow (.brkOther sc) (s.inBreak && (Instr.brkOther sc).wf s.cfg) s.flags.onBreakOther

/-- `EXT.CTRL` (R140, R141). -/
def execExtCtrl (s : State) : Result := s.runScRow .extCtrl s.inExtended s.flags.onExtCtrl

/-- `EXT.ALT` (R140, R142). -/
def execExtAlt (s : State) : Result := s.runScRow .extAlt s.inExtended s.flags.onExtAlt

/-- `EXT.OTHER` (R140, R143, R153). -/
def execExtOther (sc : Byte) (s : State) : Result :=
  s.runScRow (.extOther sc) (s.inExtended && (Instr.extOther sc).wf s.cfg) (s.flags.onExtOther s.cfg sc)

/-- `MAKE.LSHIFT` (R144). -/
def execMakeLshift (s : State) : Result := s.runScRow .makeLshift s.inPlain s.flags.onMakeShift

/-- `MAKE.RSHIFT` (R144). -/
def execMakeRshift (s : State) : Result := s.runScRow .makeRshift s.inPlain s.flags.onMakeShift

/-- `MAKE.CTRL` (R145). -/
def execMakeCtrl (s : State) : Result := s.runScRow .makeCtrl s.inPlain s.flags.onMakeCtrl

/-- `MAKE.ALT` (R146). -/
def execMakeAlt (s : State) : Result := s.runScRow .makeAlt s.inPlain s.flags.onMakeAlt

/-- `MAKE.CAPS` (R147, R155). -/
def execMakeCaps (s : State) : Result := s.runScRow .makeCaps (s.inPlain && !s.flags.lockpend) s.flags.onMakeCaps

/-- `MAKE.NUM` (R148, R155). -/
def execMakeNum (s : State) : Result := s.runScRow .makeNum (s.inPlain && !s.flags.lockpend) s.flags.onMakeNum

/-- `MAKE.SCROLL` (R149, R155). -/
def execMakeScroll (s : State) : Result :=
  s.runScRow .makeScroll (s.inPlain && !s.flags.lockpend) s.flags.onMakeScroll

/-- `MAKE.CAPS.LATCHED` (R150). -/
def execMakeCapsLatched (s : State) : Result :=
  s.runScRow .makeCapsLatched (s.inPlain && s.flags.lockpend) (s.flags.onLookup s.cfg s.cfg.scCaps)

/-- `MAKE.NUM.LATCHED` (R150). -/
def execMakeNumLatched (s : State) : Result :=
  s.runScRow .makeNumLatched (s.inPlain && s.flags.lockpend) (s.flags.onLookup s.cfg s.cfg.scNum)

/-- `MAKE.SCROLL.LATCHED` (R150). -/
def execMakeScrollLatched (s : State) : Result :=
  s.runScRow .makeScrollLatched (s.inPlain && s.flags.lockpend) (s.flags.onLookup s.cfg s.cfg.scScroll)

/-- `MAKE.OTHER` (R151 to R153). -/
def execMakeOther (sc : Byte) (s : State) : Result :=
  s.runScRow (.makeOther sc) (s.inPlain && (Instr.makeOther sc).wf s.cfg) (s.flags.onLookup s.cfg sc)

end Sys2Proof.Machine
end

