-- ==== Sys2Proof/Machine/Dispatch.lean ====
section
/-! DEFINITION. One operation of the table performed on a state: one arm per constructor of `Instr`. -/

namespace Sys2Proof.Machine

def exec (i : Instr) (s : State) : Host.Outcome State Fault Refusal :=
  match i with
  | .rxFrame start b parity stop => Sys2Proof.Machine.execRxFrame start b parity stop s
  | .txFrame b ack => Sys2Proof.Machine.execTxFrame b ack s
  | .rxStart d => Sys2Proof.Machine.execRxStart d s
  | .rxData1 d => Sys2Proof.Machine.execRxData1 d s
  | .rxData2 d => Sys2Proof.Machine.execRxData2 d s
  | .rxData3 d => Sys2Proof.Machine.execRxData3 d s
  | .rxData4 d => Sys2Proof.Machine.execRxData4 d s
  | .rxData5 d => Sys2Proof.Machine.execRxData5 d s
  | .rxData6 d => Sys2Proof.Machine.execRxData6 d s
  | .rxData7 d => Sys2Proof.Machine.execRxData7 d s
  | .rxData8 d => Sys2Proof.Machine.execRxData8 d s
  | .rxParity d => Sys2Proof.Machine.execRxParity d s
  | .rxStop d => Sys2Proof.Machine.execRxStop d s
  | .txStart d => Sys2Proof.Machine.execTxStart d s
  | .txData1 d => Sys2Proof.Machine.execTxData1 d s
  | .txData2 d => Sys2Proof.Machine.execTxData2 d s
  | .txData3 d => Sys2Proof.Machine.execTxData3 d s
  | .txData4 d => Sys2Proof.Machine.execTxData4 d s
  | .txData5 d => Sys2Proof.Machine.execTxData5 d s
  | .txData6 d => Sys2Proof.Machine.execTxData6 d s
  | .txData7 d => Sys2Proof.Machine.execTxData7 d s
  | .txData8 d => Sys2Proof.Machine.execTxData8 d s
  | .txParity d => Sys2Proof.Machine.execTxParity d s
  | .txStop d => Sys2Proof.Machine.execTxStop d s
  | .txAck d => Sys2Proof.Machine.execTxAck d s
  | .scEmpty => Sys2Proof.Machine.execScEmpty s
  | .extPrefix => Sys2Proof.Machine.execExtPrefix s
  | .breakPrefix => Sys2Proof.Machine.execBreakPrefix s
  | .batOk => Sys2Proof.Machine.execBatOk s
  | .brkLshift => Sys2Proof.Machine.execBrkLshift s
  | .brkRshift => Sys2Proof.Machine.execBrkRshift s
  | .brkCtrl => Sys2Proof.Machine.execBrkCtrl s
  | .brkAlt => Sys2Proof.Machine.execBrkAlt s
  | .brkCaps => Sys2Proof.Machine.execBrkCaps s
  | .brkNum => Sys2Proof.Machine.execBrkNum s
  | .brkScroll => Sys2Proof.Machine.execBrkScroll s
  | .brkOther sc => Sys2Proof.Machine.execBrkOther sc s
  | .extCtrl => Sys2Proof.Machine.execExtCtrl s
  | .extAlt => Sys2Proof.Machine.execExtAlt s
  | .extOther sc => Sys2Proof.Machine.execExtOther sc s
  | .makeLshift => Sys2Proof.Machine.execMakeLshift s
  | .makeRshift => Sys2Proof.Machine.execMakeRshift s
  | .makeCtrl => Sys2Proof.Machine.execMakeCtrl s
  | .makeAlt => Sys2Proof.Machine.execMakeAlt s
  | .makeCaps => Sys2Proof.Machine.execMakeCaps s
  | .makeNum => Sys2Proof.Machine.execMakeNum s
  | .makeScroll => Sys2Proof.Machine.execMakeScroll s
  | .makeCapsLatched => Sys2Proof.Machine.execMakeCapsLatched s
  | .makeNumLatched => Sys2Proof.Machine.execMakeNumLatched s
  | .makeScrollLatched => Sys2Proof.Machine.execMakeScrollLatched s
  | .makeOther sc => Sys2Proof.Machine.execMakeOther sc s
  | .ledCommand caps num scroll => Sys2Proof.Machine.execLedCommand caps num scroll s
  | .edge d => Sys2Proof.Machine.execEdge d s
  | .sendStart => Sys2Proof.Machine.execSendStart s
  | .enqueue b => Sys2Proof.Machine.execEnqueue b s
  | .dequeue => Sys2Proof.Machine.execDequeue s
  | .translate sc => Sys2Proof.Machine.execTranslate sc s
  | .consume => Sys2Proof.Machine.execConsume s
  | .poll => Sys2Proof.Machine.execPoll s
  | .sendCommand b => Sys2Proof.Machine.execSendCommand b s
  | .setLeds caps num scroll => Sys2Proof.Machine.execSetLeds caps num scroll s
  | .status => Sys2Proof.Machine.execStatus s
  | .init kind => Sys2Proof.Machine.execInit kind s

end Sys2Proof.Machine
end

