-- ==== Sys2Proof/Machine/Fetch.lean ====
section
/-! DEFINITION. How the block comes to its next operation: one turn of one agent at a time (spec/00_scope.md R6,
spec/20_memory.md R48; log entries 1 to 4), and how a word is placed for the next step (`State.load`). -/

namespace Sys2Proof.Machine

/-- A start state the block accepts: one that meets the invariant of spec/10_state.md R14
(spec/93_implementation_defined.md U9, decision D33). `POS <= 11` is `POS`'s type. The pair (Sending, 0) exists only
inside `SEND_START`, so no step starts from it. -/
def State.legal (s : State) : Bool :=
  (match s.mode with
    | .idle => s.pos == 0 && s.datadrv == .released
    | .receiving => decide (1 ≤ s.pos.val) && decide (s.pos.val ≤ 10) && s.datadrv == .released
    | .sending => decide (1 ≤ s.pos.val))
    && s.clkdrv == .released
    && decide (s.q.length ≤ s.cfg.n)
    && decide (s.cmdp.length ≤ 2)

/-- The code stands for an operation that the foreground's turn passes over in this state. A code that is no operation
is not: it comes up and is refused (log entry 34). -/
def State.holds (s : State) (c : Code) : Bool :=
  match decode s.cfg c with
  | .ok i => waits i s
  | .error _ => false

/-- The first code that is not held, and the others in their order. -/
def State.firstEnabled (s : State) : List Code → Option (Code × List Code)
  | [] => none
  | c :: rest =>
    if s.holds c then
      (match s.firstEnabled rest with
      | none => none
      | some (d, others) => some (d, c :: others))
    else some (c, rest)

/-- The next operation of an agent, taken out of its list: the line's events come in their order, the foreground
passes over the operations that wait (log entry 4). What the list holds is taken as it stands, and the step refuses an
operation of the other agent (log entry 33). -/
def State.fetch (s : State) (a : Agent) : Option (Code × State) :=
  match a with
  | .line =>
    match s.events with
    | [] => none
    | c :: rest => some (c, { s with events := rest })
  | .foreground =>
    match s.firstEnabled s.calls with
    | none => none
    | some (c, rest) => some (c, { s with calls := rest })

/-- Whose input an operation is: edges, their responses, a frame on the wire, `ENQUEUE` and the reset input are the
line's; everything else is the foreground's (R75, R201). -/
def agentOf : Instr → Agent
  | .rxFrame .. => .line
  | .rxStart _ | .rxData1 _ | .rxData2 _ | .rxData3 _ | .rxData4 _ | .rxData5 _ | .rxData6 _ | .rxData7 _ => .line
  | .rxData8 _ | .rxParity _ | .rxStop _ => .line
  | .txStart _ | .txData1 _ | .txData2 _ | .txData3 _ | .txData4 _ | .txData5 _ | .txData6 _ | .txData7 _ => .line
  | .txData8 _ | .txParity _ | .txStop _ | .txAck _ => .line
  | .edge _ | .enqueue _ | .init .reset => .line
  | .txFrame .. => .foreground
  | .scEmpty | .extPrefix | .breakPrefix | .batOk => .foreground
  | .brkLshift | .brkRshift | .brkCtrl | .brkAlt | .brkCaps | .brkNum | .brkScroll | .brkOther _ => .foreground
  | .extCtrl | .extAlt | .extOther _ => .foreground
  | .makeLshift | .makeRshift | .makeCtrl | .makeAlt | .makeCaps | .makeNum | .makeScroll => .foreground
  | .makeCapsLatched | .makeNumLatched | .makeScrollLatched | .makeOther _ => .foreground
  | .ledCommand .. => .foreground
  | .sendStart | .dequeue | .translate _ | .consume | .poll | .sendCommand _ => .foreground
  | .setLeds .. | .status | .init .call => .foreground

/-- The operation inside which alone an operation is performed (R75: `ENQUEUE`, `DEQUEUE` and `TRANSLATE` "are not
scheduled on their own; they are parts of `RX.STOP` and `CONSUME`"): `ENQUEUE` in `RX.STOP`, which is an edge;
`DEQUEUE`, `TRANSLATE` and its scancode rows in `CONSUME`; `TX.START` in `SEND_START` (R73). None for an operation that
is scheduled itself. -/
def enclosing : Instr → Option Instr
  | .enqueue _ => some (.edge false)
  | .dequeue | .translate _ => some .consume
  | .scEmpty | .extPrefix | .breakPrefix | .batOk => some .consume
  | .brkLshift | .brkRshift | .brkCtrl | .brkAlt | .brkCaps | .brkNum | .brkScroll | .brkOther _ => some .consume
  | .extCtrl | .extAlt | .extOther _ => some .consume
  | .makeLshift | .makeRshift | .makeCtrl | .makeAlt | .makeCaps | .makeNum | .makeScroll => some .consume
  | .makeCapsLatched | .makeNumLatched | .makeScrollLatched | .makeOther _ => some .consume
  | .txStart _ => some .sendStart
  | .rxFrame .. | .txFrame .. => none
  | .rxStart _ | .rxData1 _ | .rxData2 _ | .rxData3 _ | .rxData4 _ | .rxData5 _ | .rxData6 _ | .rxData7 _ => none
  | .rxData8 _ | .rxParity _ | .rxStop _ => none
  | .txData1 _ | .txData2 _ | .txData3 _ | .txData4 _ | .txData5 _ | .txData6 _ | .txData7 _ => none
  | .txData8 _ | .txParity _ | .txStop _ | .txAck _ => none
  | .ledCommand .. => none
  | .edge _ | .sendStart | .consume | .poll | .sendCommand _ | .setLeds .. | .status | .init _ => none

/-- The state in which an operation's word is the one the block selects: the (MODE, POS) pair of an EDGE row (R73),
the prefix context of an SC row (R70) with its byte at the head of the queue (R156), the pending byte of a send frame
(R61). The parts of other operations are selected where those perform them (R75, R73): `ENQUEUE(b)` at the stop bit of
a frame that brought `b`, `TRANSLATE(sc)` with `sc` at the head of the queue, `TX.START` where `SEND_START` is enabled,
with the byte `0x00` pending if none is (log entry 2). The other operations are invoked by name and need nothing. -/
def State.selecting (s : State) (i : Instr) : State :=
  match i.edgeKey, i.scKey s.cfg, i with
  | _, _, .txStart _ =>
    { s with
      mode := .idle
      pos := 0
      datadrv := .released
      cmdp := if s.cmdp = [] then [0x00] else s.cmdp }
  | some (m, p), _, _ => { s with mode := m, pos := p, datadrv := if m = .sending then s.datadrv else .released }
  | none, some (sc, brk, ext, lockpend), _ =>
    { s with
      q := sc :: s.q.tail
      flags := { s.flags with brk := brk, ext := ext, lockpend := lockpend } }
  | none, none, .txFrame b _ => { s with mode := .idle, pos := 0, datadrv := .released, cmdp := [b] }
  | none, none, .enqueue b => { s with mode := .receiving, pos := 10, datadrv := .released, sr := b }
  | none, none, .translate sc => { s with q := sc :: s.q.tail }
  | none, none, _ => s

/-- A code placed as the next input of an agent, whose turn is next. -/
def State.place (s : State) (a : Agent) (c : Code) : State :=
  match a with
  | .line => { s with events := c :: s.events, turns := .line :: s.turns }
  | .foreground => { s with calls := c :: s.calls, turns := .foreground :: s.turns }

/-- A code placed as the next input of its operation's agent, in the state that selects it. For an operation that is
only a part of another, the operation that performs it is placed (R75, log entries 2, 12). A code that is no operation
is placed as it is. -/
def State.load (s : State) (c : Code) : State :=
  match decode s.cfg c with
  | .error _ => s.place .line c
  | .ok i =>
    match enclosing i with
    | none => (s.selecting i).place (agentOf i) c
    | some j => (s.selecting i).place (agentOf j) (encode s.cfg j)

end Sys2Proof.Machine
end

