-- ==== Sys2Proof/Machine/Step.lean ====
section
/-! DEFINITION. One step of the machine: the turn of one agent, and in it one operation, atomic and whole
(spec/00_scope.md R6, spec/20_memory.md R48). -/

namespace Sys2Proof.Machine

/-- A code fetched from an agent's list is decoded and performed if the operation is that agent's (R75). An operation
of the other agent would be a second caller, and is refused (R182, R231, U11; log entry 33); so is an operation that is
only a part of another and not scheduled on its own (R75, log entry 12), and a code that is no operation (log
entry 34). -/
def runCode (a : Agent) (c : Code) (s : State) : Host.Outcome State Fault Refusal :=
  match decode s.cfg c with
  | .ok i =>
    if agentOf i = a then (if enclosing i = none then exec i s else .refused .insideOnly)
    else .refused .otherAgent
  | .error e => .refused (.illegalCode e)

/-- The turn of an agent: its next operation, or nothing if it has none that is enabled (log entry 3). -/
def runTurn (a : Agent) (s : State) : Host.Outcome State Fault Refusal :=
  match s.fetch a with
  | none => .next s
  | some (c, t) => runCode a c t

/-- One step. With no turn scheduled nothing happens: the block never halts and has no edge to answer (R203, R236).
A state that breaks R14 is refused (U9). -/
def step (s : State) : Host.Outcome State Fault Refusal :=
  if s.legal then
    match s.turns with
    | [] => .next s
    | a :: rest => runTurn a { s with turns := rest }
  else .refused .brokenState

/-- `s` with the word `w` of spec/opcode_table.json placed as the next operation (log entries 2, 8). -/
def State.withFetchWord (s : State) (nbits w : Nat) : State := s.load (tableCode nbits w)

end Sys2Proof.Machine
end

