-- ==== Sys2Proof/Laws/Encoding.lean ====
section
/-! SUPPORT. The bits of each format, read back field by field, and the classes of the key codes: what the round trips
of Sys2Proof/Laws/PerInstr.lean rest on. -/

namespace Sys2Proof

/-! ### Receive frames -/

theorem frameRx_bit_form (start : Bool) (b : Byte) (p stop : Bool) (i : Nat) :
    @BitVec.getLsbD (5+1+1+8+1) (0#5 ++ BitVec.ofBool stop ++ BitVec.ofBool p ++ b ++ BitVec.ofBool start) i =
      if i = 0 then start else if i < 9 then b.getLsbD (i - 1)
      else if i = 9 then p else if i = 10 then stop else false := by
  rw [BitVec.getLsbD_append, BitVec.getLsbD_append, BitVec.getLsbD_append, BitVec.getLsbD_append]
  simp only [BitVec.getLsbD_ofBool, BitVec.getLsbD_zero]
  split_ifs <;> first | rfl | omega | simp_all

theorem frameRxBits_bit (start : Bool) (b : Byte) (p stop : Bool) (i : Nat) :
    (frameRxBits start b p stop).getLsbD i =
      if i = 0 then start else if i < 9 then b.getLsbD (i - 1)
      else if i = 9 then p else if i = 10 then stop else false :=
  frameRx_bit_form start b p stop i

theorem decodeFrameRx_bits (start : Bool) (b : Byte) (p stop : Bool) :
    decodeFrameRx (frameRxBits start b p stop) = .ok (.rxFrame start b p stop) := by
  have hhi : (frameRxBits start b p stop).extractLsb' 11 5 = 0 := by
    apply BitVec.eq_of_getLsbD_eq
    intro i hi
    simp [frameRxBits_bit]
    split_ifs <;> omega
  have hb : (frameRxBits start b p stop).extractLsb' 1 8 = b := by
    apply BitVec.eq_of_getLsbD_eq
    intro i hi
    simp [frameRxBits_bit, hi]
    omega
  unfold decodeFrameRx
  rw [if_pos hhi, hb, frameRxBits_bit, frameRxBits_bit, frameRxBits_bit]
  rfl

/-! ### Send frames -/

theorem frameTx_bit_form (b : Byte) (p ack : Bool) (i : Nat) :
    @BitVec.getLsbD (4+1+1+1+8+1) (0#4 ++ BitVec.ofBool ack ++ 1#1 ++ BitVec.ofBool p ++ b ++ 0#1) i =
      if i = 0 then false else if i < 9 then b.getLsbD (i - 1)
      else if i = 9 then p else if i = 10 then true else if i = 11 then ack else false := by
  rw [BitVec.getLsbD_append, BitVec.getLsbD_append, BitVec.getLsbD_append, BitVec.getLsbD_append,
    BitVec.getLsbD_append]
  simp only [BitVec.getLsbD_ofBool, BitVec.getLsbD_zero, BitVec.getLsbD_one]
  split_ifs <;> first | rfl | omega | simp_all

theorem frameTxBits_bit (b : Byte) (ack : Bool) (i : Nat) :
    (frameTxBits b ack).getLsbD i =
      if i = 0 then false else if i < 9 then b.getLsbD (i - 1)
      else if i = 9 then parity b else if i = 10 then true else if i = 11 then ack else false :=
  frameTx_bit_form b (parity b) ack i

theorem decodeFrameTx_bits (b : Byte) (ack : Bool) :
    decodeFrameTx (frameTxBits b ack) = .ok (.txFrame b ack) := by
  have hhi : (frameTxBits b ack).extractLsb' 12 4 = 0 := by
    apply BitVec.eq_of_getLsbD_eq
    intro i hi
    simp [frameTxBits_bit]
    split_ifs <;> omega
  have hb : (frameTxBits b ack).extractLsb' 1 8 = b := by
    apply BitVec.eq_of_getLsbD_eq
    intro i hi
    simp [frameTxBits_bit, hi]
    omega
  unfold decodeFrameTx
  rw [if_pos hhi, hb, frameTxBits_bit, frameTxBits_bit, frameTxBits_bit, frameTxBits_bit]
  simp

/-! ### Scancodes in their context -/

theorem sc_bit_form (sc : Byte) (brk ext lockpend : Bool) (i : Nat) :
    @BitVec.getLsbD (5+1+1+1+8)
      (0#5 ++ BitVec.ofBool lockpend ++ BitVec.ofBool ext ++ BitVec.ofBool brk ++ sc) i =
      if i < 8 then sc.getLsbD i else if i = 8 then brk else if i = 9 then ext
      else if i = 10 then lockpend else false := by
  rw [BitVec.getLsbD_append, BitVec.getLsbD_append, BitVec.getLsbD_append, BitVec.getLsbD_append]
  simp only [BitVec.getLsbD_ofBool, BitVec.getLsbD_zero]
  split_ifs <;> first | rfl | omega | simp_all

theorem scBits_bit (sc : Byte) (brk ext lockpend : Bool) (i : Nat) :
    (scBits sc brk ext lockpend).getLsbD i =
      if i < 8 then sc.getLsbD i else if i = 8 then brk else if i = 9 then ext
      else if i = 10 then lockpend else false :=
  sc_bit_form sc brk ext lockpend i

theorem decodeSc_bits (cfg : Config) (sc : Byte) (brk ext lockpend : Bool) :
    decodeSc cfg (scBits sc brk ext lockpend) = .ok (scRow cfg sc brk ext lockpend) := by
  have hhi : (scBits sc brk ext lockpend).extractLsb' 11 5 = 0 := by
    apply BitVec.eq_of_getLsbD_eq
    intro i hi
    simp [scBits_bit]
    split_ifs <;> omega
  have hb : (scBits sc brk ext lockpend).extractLsb' 0 8 = sc := by
    apply BitVec.eq_of_getLsbD_eq
    intro i hi
    simp [scBits_bit, hi]
  unfold decodeSc
  rw [if_pos hhi, hb, scBits_bit, scBits_bit, scBits_bit]
  rfl

/-! ### The LED command -/

theorem cmd_bit_form (x : Byte) (c n s : Bool) (i : Nat) :
    @BitVec.getLsbD (8+8) (x ++ ledByte c n s) i =
      if i < 8 then (ledByte c n s).getLsbD i else x.getLsbD (i - 8) := by
  rw [BitVec.getLsbD_append]

theorem cmdBits_bit (cfg : Config) (c n s : Bool) (i : Nat) :
    (cmdBits cfg c n s).getLsbD i =
      if i < 8 then (ledByte c n s).getLsbD i else cfg.cmdSetLeds.getLsbD (i - 8) :=
  cmd_bit_form cfg.cmdSetLeds c n s i

theorem decodeCmd_bits (cfg : Config) (c n s : Bool) :
    decodeCmd cfg (cmdBits cfg c n s) = .ok (.ledCommand c n s) := by
  have hhi : (cmdBits cfg c n s).extractLsb' 8 8 = cfg.cmdSetLeds := by
    apply BitVec.eq_of_getLsbD_eq
    intro i hi
    simp [cmdBits_bit, hi]
  have hled : ∀ c n s : Bool, (ledByte c n s).extractLsb' 3 5 = 0 ∧ (ledByte c n s).getLsbD 2 = c ∧
      (ledByte c n s).getLsbD 1 = n ∧ (ledByte c n s).getLsbD 0 = s := by decide
  have hlo : (cmdBits cfg c n s).extractLsb' 3 5 = 0 := by
    rw [← (hled c n s).1]
    apply BitVec.eq_of_getLsbD_eq
    intro i hi
    simp only [BitVec.getLsbD_extractLsb', cmdBits_bit]
    rw [if_pos (by omega)]
  unfold decodeCmd
  rw [if_pos ⟨hhi, hlo⟩, cmdBits_bit, cmdBits_bit, cmdBits_bit, if_pos (by decide), if_pos (by decide),
    if_pos (by decide), (hled c n s).2.1, (hled c n s).2.2.1, (hled c n s).2.2.2]

/-! ### Operations invoked by name -/

theorem op_bit_form (tag : BitVec 4) (b : Byte) (i : Nat) :
    @BitVec.getLsbD (12+4) ((0#4 ++ b : BitVec (4+8)) ++ tag) i =
      if i < 4 then tag.getLsbD i else if i < 12 then b.getLsbD (i - 4) else false := by
  rw [BitVec.getLsbD_append]
  split_ifs with h1 h2
  · rfl
  · rw [show ((0#4 ++ b : BitVec (4+8)).getLsbD (i - 4)) = _ from BitVec.getLsbD_append, if_pos (by omega)]
  · rw [show ((0#4 ++ b : BitVec (4+8)).getLsbD (i - 4)) = _ from BitVec.getLsbD_append, if_neg (by omega)]
    simp

theorem opByteBits_bit (tag : BitVec 4) (b : Byte) (i : Nat) :
    (opBits tag (byteOperand b)).getLsbD i =
      if i < 4 then tag.getLsbD i else if i < 12 then b.getLsbD (i - 4) else false :=
  op_bit_form tag b i

/-- The three parts of an operation with a byte operand. -/
theorem opByteBits_parts (tag : BitVec 4) (b : Byte) :
    (opBits tag (byteOperand b)).extractLsb' 0 4 = tag ∧ (opBits tag (byteOperand b)).extractLsb' 4 8 = b ∧
      (opBits tag (byteOperand b)).extractLsb' 12 4 = 0 := by
  refine ⟨?_, ?_, ?_⟩ <;> apply BitVec.eq_of_getLsbD_eq <;> intro i hi
  · simp [opByteBits_bit, hi]
  · simp [opByteBits_bit, hi]
    omega
  · simp [opByteBits_bit]
    omega

theorem opByte_bits (tag : BitVec 4) (b : Byte) (i : Byte → Instr) :
    opByte (opBits tag (byteOperand b)) i = .ok (i b) := by
  unfold opByte
  rw [if_pos (opByteBits_parts tag b).2.2, (opByteBits_parts tag b).2.1]

/-! ### The classes of the key codes -/

/-- TC5 spelled out: each key code is in its class, and none is `0x00`; the two Shift codes differ. -/
theorem classify_keys {cfg : Config} (h : cfg.Tc5) :
    (classify cfg cfg.scLshift = .shift ∧ classify cfg cfg.scRshift = .shift ∧ classify cfg cfg.scCtrl = .ctrl ∧
      classify cfg cfg.scAlt = .alt ∧ classify cfg cfg.scCaps = .caps ∧ classify cfg cfg.scNum = .num ∧
      classify cfg cfg.scScroll = .scroll) ∧
    (cfg.scLshift ≠ 0#8 ∧ cfg.scRshift ≠ 0#8 ∧ cfg.scCtrl ≠ 0#8 ∧ cfg.scAlt ≠ 0#8 ∧ cfg.scCaps ≠ 0#8 ∧ cfg.scNum ≠ 0#8 ∧
      cfg.scScroll ≠ 0#8) ∧ cfg.scRshift ≠ cfg.scLshift := by
  simp only [Config.Tc5, List.nodup_cons, List.mem_cons, not_or] at h
  obtain ⟨⟨lr, lc, la, lk, ln, ls, lE, lF, lA, l0, -⟩, ⟨rc, ra, rk, rn, rs, rE, rF, rA, r0, -⟩,
    ⟨ca, ck, cn, cs, cE, cF, cA, c0, -⟩, ⟨ak, an, as, aE, aF, aA, a0, -⟩, ⟨kn, ks, kE, kF, kA, k0, -⟩,
    ⟨ns, nE, nF, nA, n0, -⟩, ⟨sE, sF, sA, s0, -⟩, -⟩ := h
  refine ⟨⟨?_, ?_, ?_, ?_, ?_, ?_, ?_⟩, ⟨l0, r0, c0, a0, k0, n0, s0⟩, fun e => lr e.symm⟩ <;> unfold classify
  · rw [if_neg lE, if_neg lF, if_neg lA, if_pos (.inl rfl)]
  · rw [if_neg rE, if_neg rF, if_neg rA, if_pos (.inr rfl)]
  · rw [if_neg cE, if_neg cF, if_neg cA, if_neg (by simp [Ne.symm lc, Ne.symm rc]), if_pos rfl]
  · rw [if_neg aE, if_neg aF, if_neg aA, if_neg (by simp [Ne.symm la, Ne.symm ra]), if_neg (Ne.symm ca), if_pos rfl]
  · rw [if_neg kE, if_neg kF, if_neg kA, if_neg (by simp [Ne.symm lk, Ne.symm rk]), if_neg (Ne.symm ck),
      if_neg (Ne.symm ak), if_pos rfl]
  · rw [if_neg nE, if_neg nF, if_neg nA, if_neg (by simp [Ne.symm ln, Ne.symm rn]), if_neg (Ne.symm cn),
      if_neg (Ne.symm an), if_neg (Ne.symm kn), if_pos rfl]
  · rw [if_neg sE, if_neg sF, if_neg sA, if_neg (by simp [Ne.symm ls, Ne.symm rs]), if_neg (Ne.symm cs),
      if_neg (Ne.symm as), if_neg (Ne.symm ks), if_neg (Ne.symm ns), if_pos rfl]

end Sys2Proof
end

