-- ==== Sys2Proof/Laws/PerInstr.lean ====
section
/-! SUPPORT. Per-instruction families: `DecodeEncode`, one lemma per constructor of `Instr`: under an allowed parameter
record, a well-formed operation's code decodes to the operation, with every operand as it was. -/

namespace Sys2Proof.Laws.DecodeEncode

/-- The round trip of one operation. -/
def Statement (i : Instr) : Prop :=
  ∀ cfg : Config, cfg.Wf → i.wf cfg = true → decode cfg (encode cfg i) = .ok i

/-- A scancode row decodes to the row its byte and context select. -/
theorem of_row {cfg : Config} {i : Instr} (sc : Byte) (brk ext lockpend : Bool)
    (he : encode cfg i = ⟨.sc, scBits sc brk ext lockpend⟩) (hr : scRow cfg sc brk ext lockpend = i) :
    decode cfg (encode cfg i) = .ok i := by
  rw [he]
  exact (decodeSc_bits cfg sc brk ext lockpend).trans (by rw [hr])

theorem rxFrame (start : Bool) (b : Byte) (parity : Bool) (stop : Bool) : Statement (.rxFrame start b parity stop) :=
  fun _ _ _ => decodeFrameRx_bits start b parity stop

theorem txFrame (b : Byte) (ack : Bool) : Statement (.txFrame b ack) := fun _ _ _ => decodeFrameTx_bits b ack

theorem rxStart (d : Bool) : Statement (.rxStart d) := by
  intro _ _ _
  change decodeEdge (edgeBits .idle 0 d) = _
  cases d <;> decide

theorem rxData1 (d : Bool) : Statement (.rxData1 d) := by
  intro _ _ _
  change decodeEdge (edgeBits .receiving 1 d) = _
  cases d <;> decide

theorem rxData2 (d : Bool) : Statement (.rxData2 d) := by
  intro _ _ _
  change decodeEdge (edgeBits .receiving 2 d) = _
  cases d <;> decide

theorem rxData3 (d : Bool) : Statement (.rxData3 d) := by
  intro _ _ _
  change decodeEdge (edgeBits .receiving 3 d) = _
  cases d <;> decide

theorem rxData4 (d : Bool) : Statement (.rxData4 d) := by
  intro _ _ _
  change decodeEdge (edgeBits .receiving 4 d) = _
  cases d <;> decide

theorem rxData5 (d : Bool) : Statement (.rxData5 d) := by
  intro _ _ _
  change decodeEdge (edgeBits .receiving 5 d) = _
  cases d <;> decide

theorem rxData6 (d : Bool) : Statement (.rxData6 d) := by
  intro _ _ _
  change decodeEdge (edgeBits .receiving 6 d) = _
  cases d <;> decide

theorem rxData7 (d : Bool) : Statement (.rxData7 d) := by
  intro _ _ _
  change decodeEdge (edgeBits .receiving 7 d) = _
  cases d <;> decide

theorem rxData8 (d : Bool) : Statement (.rxData8 d) := by
  intro _ _ _
  change decodeEdge (edgeBits .receiving 8 d) = _
  cases d <;> decide

theorem rxParity (d : Bool) : Statement (.rxParity d) := by
  intro _ _ _
  change decodeEdge (edgeBits .receiving 9 d) = _
  cases d <;> decide

theorem rxStop (d : Bool) : Statement (.rxStop d) := by
  intro _ _ _
  change decodeEdge (edgeBits .receiving 10 d) = _
  cases d <;> decide

theorem txStart (d : Bool) : Statement (.txStart d) := by
  intro _ _ _
  change decodeEdge (edgeBits .sending 0 d) = _
  cases d <;> decide

theorem txData1 (d : Bool) : Statement (.txData1 d) := by
  intro _ _ _
  change decodeEdge (edgeBits .sending 1 d) = _
  cases d <;> decide

theorem txData2 (d : Bool) : Statement (.txData2 d) := by
  intro _ _ _
  change decodeEdge (edgeBits .sending 2 d) = _
  cases d <;> decide

theorem txData3 (d : Bool) : Statement (.txData3 d) := by
  intro _ _ _
  change decodeEdge (edgeBits .sending 3 d) = _
  cases d <;> decide

theorem txData4 (d : Bool) : Statement (.txData4 d) := by
  intro _ _ _
  change decodeEdge (edgeBits .sending 4 d) = _
  cases d <;> decide

theorem txData5 (d : Bool) : Statement (.txData5 d) := by
  intro _ _ _
  change decodeEdge (edgeBits .sending 5 d) = _
  cases d <;> decide

theorem txData6 (d : Bool) : Statement (.txData6 d) := by
  intro _ _ _
  change decodeEdge (edgeBits .sending 6 d) = _
  cases d <;> decide

theorem txData7 (d : Bool) : Statement (.txData7 d) := by
  intro _ _ _
  change decodeEdge (edgeBits .sending 7 d) = _
  cases d <;> decide

theorem txData8 (d : Bool) : Statement (.txData8 d) := by
  intro _ _ _
  change decodeEdge (edgeBits .sending 8 d) = _
  cases d <;> decide

theorem txParity (d : Bool) : Statement (.txParity d) := by
  intro _ _ _
  change decodeEdge (edgeBits .sending 9 d) = _
  cases d <;> decide

theorem txStop (d : Bool) : Statement (.txStop d) := by
  intro _ _ _
  change decodeEdge (edgeBits .sending 10 d) = _
  cases d <;> decide

theorem txAck (d : Bool) : Statement (.txAck d) := by
  intro _ _ _
  change decodeEdge (edgeBits .sending 11 d) = _
  cases d <;> decide

theorem scEmpty : Statement .scEmpty := fun _ _ _ => of_row 0 false false false rfl rfl

theorem extPrefix : Statement .extPrefix := fun _ _ _ => of_row 0xE0 false false false rfl rfl

theorem breakPrefix : Statement .breakPrefix := fun _ _ _ => of_row 0xF0 false false false rfl rfl

theorem batOk : Statement .batOk := fun _ _ _ => of_row 0xAA false false false rfl rfl

theorem brkLshift : Statement .brkLshift := by
  intro cfg h _
  refine of_row cfg.scLshift true false false rfl ?_
  simp [scRow, (classify_keys h.2.2.2.2.2).1.1, (classify_keys h.2.2.2.2.2).2.1.1]

theorem brkRshift : Statement .brkRshift := by
  intro cfg h _
  refine of_row cfg.scRshift true false false rfl ?_
  simp [scRow, (classify_keys h.2.2.2.2.2).1.2.1, (classify_keys h.2.2.2.2.2).2.1.2.1, (classify_keys h.2.2.2.2.2).2.2]

theorem brkCtrl : Statement .brkCtrl := by
  intro cfg h _
  refine of_row cfg.scCtrl true false false rfl ?_
  simp [scRow, (classify_keys h.2.2.2.2.2).1.2.2.1, (classify_keys h.2.2.2.2.2).2.1.2.2.1]

theorem brkAlt : Statement .brkAlt := by
  intro cfg h _
  refine of_row cfg.scAlt true false false rfl ?_
  simp [scRow, (classify_keys h.2.2.2.2.2).1.2.2.2.1, (classify_keys h.2.2.2.2.2).2.1.2.2.2.1]

theorem brkCaps : Statement .brkCaps := by
  intro cfg h _
  refine of_row cfg.scCaps true false false rfl ?_
  simp [scRow, (classify_keys h.2.2.2.2.2).1.2.2.2.2.1, (classify_keys h.2.2.2.2.2).2.1.2.2.2.2.1]

theorem brkNum : Statement .brkNum := by
  intro cfg h _
  refine of_row cfg.scNum true false false rfl ?_
  simp [scRow, (classify_keys h.2.2.2.2.2).1.2.2.2.2.2.1, (classify_keys h.2.2.2.2.2).2.1.2.2.2.2.2.1]

theorem brkScroll : Statement .brkScroll := by
  intro cfg h _
  refine of_row cfg.scScroll true false false rfl ?_
  simp [scRow, (classify_keys h.2.2.2.2.2).1.2.2.2.2.2.2, (classify_keys h.2.2.2.2.2).2.1.2.2.2.2.2.2]

theorem brkOther (sc : Byte) : Statement (.brkOther sc) := by
  intro cfg _ hw
  refine of_row sc true false false rfl ?_
  simp only [Instr.wf, Bool.and_eq_true, bne_iff_ne, ne_eq, beq_iff_eq] at hw
  simp [scRow, hw.1, hw.2]

theorem extCtrl : Statement .extCtrl := by
  intro cfg h _
  refine of_row cfg.scCtrl false true false rfl ?_
  simp [scRow, (classify_keys h.2.2.2.2.2).1.2.2.1, (classify_keys h.2.2.2.2.2).2.1.2.2.1]

theorem extAlt : Statement .extAlt := by
  intro cfg h _
  refine of_row cfg.scAlt false true false rfl ?_
  simp [scRow, (classify_keys h.2.2.2.2.2).1.2.2.2.1, (classify_keys h.2.2.2.2.2).2.1.2.2.2.1]

theorem extOther (sc : Byte) : Statement (.extOther sc) := by
  intro cfg _ hw
  refine of_row sc false true false rfl ?_
  simp only [Instr.wf, Bool.and_eq_true, bne_iff_ne, ne_eq] at hw
  unfold scRow
  rw [if_neg hw.1]
  revert hw
  cases classify cfg sc <;> simp [ScClass.extLooksUp]

theorem makeLshift : Statement .makeLshift := by
  intro cfg h _
  refine of_row cfg.scLshift false false false rfl ?_
  simp [scRow, (classify_keys h.2.2.2.2.2).1.1, (classify_keys h.2.2.2.2.2).2.1.1]

theorem makeRshift : Statement .makeRshift := by
  intro cfg h _
  refine of_row cfg.scRshift false false false rfl ?_
  simp [scRow, (classify_keys h.2.2.2.2.2).1.2.1, (classify_keys h.2.2.2.2.2).2.1.2.1, (classify_keys h.2.2.2.2.2).2.2]

theorem makeCtrl : Statement .makeCtrl := by
  intro cfg h _
  refine of_row cfg.scCtrl false false false rfl ?_
  simp [scRow, (classify_keys h.2.2.2.2.2).1.2.2.1, (classify_keys h.2.2.2.2.2).2.1.2.2.1]

theorem makeAlt : Statement .makeAlt := by
  intro cfg h _
  refine of_row cfg.scAlt false false false rfl ?_
  simp [scRow, (classify_keys h.2.2.2.2.2).1.2.2.2.1, (classify_keys h.2.2.2.2.2).2.1.2.2.2.1]

theorem makeCaps : Statement .makeCaps := by
  intro cfg h _
  refine of_row cfg.scCaps false false false rfl ?_
  simp [scRow, (classify_keys h.2.2.2.2.2).1.2.2.2.2.1, (classify_keys h.2.2.2.2.2).2.1.2.2.2.2.1]

theorem makeNum : Statement .makeNum := by
  intro cfg h _
  refine of_row cfg.scNum false false false rfl ?_
  simp [scRow, (classify_keys h.2.2.2.2.2).1.2.2.2.2.2.1, (classify_keys h.2.2.2.2.2).2.1.2.2.2.2.2.1]

theorem makeScroll : Statement .makeScroll := by
  intro cfg h _
  refine of_row cfg.scScroll false false false rfl ?_
  simp [scRow, (classify_keys h.2.2.2.2.2).1.2.2.2.2.2.2, (classify_keys h.2.2.2.2.2).2.1.2.2.2.2.2.2]

theorem makeCapsLatched : Statement .makeCapsLatched := by
  intro cfg h _
  refine of_row cfg.scCaps false false true rfl ?_
  simp [scRow, (classify_keys h.2.2.2.2.2).1.2.2.2.2.1, (classify_keys h.2.2.2.2.2).2.1.2.2.2.2.1]

theorem makeNumLatched : Statement .makeNumLatched := by
  intro cfg h _
  refine of_row cfg.scNum false false true rfl ?_
  simp [scRow, (classify_keys h.2.2.2.2.2).1.2.2.2.2.2.1, (classify_keys h.2.2.2.2.2).2.1.2.2.2.2.2.1]

theorem makeScrollLatched : Statement .makeScrollLatched := by
  intro cfg h _
  refine of_row cfg.scScroll false false true rfl ?_
  simp [scRow, (classify_keys h.2.2.2.2.2).1.2.2.2.2.2.2, (classify_keys h.2.2.2.2.2).2.1.2.2.2.2.2.2]

theorem makeOther (sc : Byte) : Statement (.makeOther sc) := by
  intro cfg _ hw
  refine of_row sc false false false rfl ?_
  simp only [Instr.wf, Bool.and_eq_true, bne_iff_ne, ne_eq, beq_iff_eq] at hw
  simp [scRow, hw.1, hw.2]

theorem ledCommand (caps : Bool) (num : Bool) (scroll : Bool) : Statement (.ledCommand caps num scroll) :=
  fun cfg _ _ => decodeCmd_bits cfg caps num scroll

theorem edge (d : Bool) : Statement (.edge d) := by
  intro _ _ _
  change decodeOp (opBits 0 (bitOperand d)) = _
  cases d <;> decide

theorem sendStart : Statement .sendStart := by
  intro _ _ _
  change decodeOp (opBits 1 0) = _
  decide

theorem enqueue (b : Byte) : Statement (.enqueue b) := by
  intro cfg _ _
  change decodeOp (opBits 2 (byteOperand b)) = _
  unfold decodeOp
  rw [(opByteBits_parts 2 b).1]
  exact opByte_bits 2 b _

theorem dequeue : Statement .dequeue := by
  intro _ _ _
  change decodeOp (opBits 3 0) = _
  decide

theorem translate (sc : Byte) : Statement (.translate sc) := by
  intro cfg _ _
  change decodeOp (opBits 4 (byteOperand sc)) = _
  unfold decodeOp
  rw [(opByteBits_parts 4 sc).1]
  exact opByte_bits 4 sc _

theorem consume : Statement .consume := by
  intro _ _ _
  change decodeOp (opBits 5 0) = _
  decide

theorem poll : Statement .poll := by
  intro _ _ _
  change decodeOp (opBits 6 0) = _
  decide

theorem sendCommand (b : Byte) : Statement (.sendCommand b) := by
  intro cfg _ _
  change decodeOp (opBits 7 (byteOperand b)) = _
  unfold decodeOp
  rw [(opByteBits_parts 7 b).1]
  exact opByte_bits 7 b _

theorem setLeds (caps : Bool) (num : Bool) (scroll : Bool) : Statement (.setLeds caps num scroll) := by
  intro _ _ _
  change decodeOp (opBits 8 (ledOperand caps num scroll)) = _
  cases caps <;> cases num <;> cases scroll <;> decide

theorem status : Statement .status := by
  intro _ _ _
  change decodeOp (opBits 9 0) = _
  decide

theorem init (kind : InitKind) : Statement (.init kind) := by
  intro _ _ _
  cases kind
  · change decodeOp (opBits 10 (bitOperand false)) = _
    decide
  · change decodeOp (opBits 10 (bitOperand true)) = _
    decide

end Sys2Proof.Laws.DecodeEncode
end

