-- ==== Sys2Proof/Machine/Ring.lean ====
section
/-! DEFINITION. The ring-buffer implementation of the queue (spec/41_queue.md R125, informative there): storage cells,
a read index and a count. It is no part of `State`, whose queue is the abstract sequence (spec/10_state.md R15);
statements say that the two agree. -/

namespace Sys2Proof.Machine

/-- `MEM`, `RD`, `CNT` (R125). -/
structure Ring where
  mem : List Byte
  rd : Nat
  cnt : Nat
deriving DecidableEq, Repr

/-- `MEM` has `N` cells, `RD` is in `0 .. N-1` and `CNT` in `0 .. N` (R125). -/
abbrev Ring.Wf (r : Ring) (n : Nat) : Prop := r.mem.length = n ∧ r.rd < n ∧ r.cnt ≤ n

/-- The ring after reset (R125): `RD = 0`, `CNT = 0`, and `MEM`, which is unspecified, any cells at all. -/
def Ring.reset (mem : List Byte) : Ring := ⟨mem, 0, 0⟩

/-- The sequence a ring stands for (R125). -/
def Ring.contents (r : Ring) : List Byte :=
  (List.range r.cnt).map (fun k => r.mem.getD ((r.rd + k) % r.mem.length) 0)

/-- `Enqueue(b)` on a ring (R125). -/
def Ring.enqueue (r : Ring) (b : Byte) : Bool × Ring :=
  if r.cnt < r.mem.length then
    (true, { r with mem := r.mem.set ((r.rd + r.cnt) % r.mem.length) b, cnt := r.cnt + 1 })
  else (false, r)

/-- `Dequeue()` on a ring (R125). -/
def Ring.dequeue (r : Ring) : Byte × Ring :=
  if r.cnt = 0 then (0x00, r)
  else (r.mem.getD r.rd 0, { r with rd := (r.rd + 1) % r.mem.length, cnt := r.cnt - 1 })

end Sys2Proof.Machine
end

