-- ==== Sys2Proof/Machine/Script.lean ====
section
/-! DEFINITION. The event-script notation of spec/30_encoding.md R76 and its pseudo-operations (R77): a script is a
list of operations, performed top to bottom when they are queued in that order. And sequences of the two queue
accesses (spec/41_queue.md R124). -/

namespace Sys2Proof.Machine

/-- `RXRAW s p t b` (R77): eleven edges with chosen start, parity and stop levels. -/
def rxRaw (start parityBit stop : Bool) (b : Byte) : List Instr :=
  (start :: (wireBits b ++ [parityBit, stop])).map Instr.edge

/-- `RXFRAME b` of the notation (R77): a well-formed frame carrying `b`. -/
def rxWellFormed (b : Byte) : List Instr := rxRaw false (parity b) true b

/-- `TXCLOCK a` (R77): edges with any levels `xs`, ten of them, and the last with the acknowledge level. -/
def txClock (xs : List Bool) (a : Bool) : List Instr := (xs ++ [a]).map Instr.edge

/-- `KEYS b1 ... bk` (R77). -/
def keys (bs : List Byte) : List Instr := bs.flatMap rxWellFormed

/-- The operations of a script put before the inputs still to come, each in its agent's list, with the turns that
perform them from first to last. -/
def State.queued (s : State) (script : List Instr) : State :=
  { s with
    events := (script.filter (fun i => agentOf i == .line)).map (encode s.cfg) ++ s.events
    calls := (script.filter (fun i => agentOf i == .foreground)).map (encode s.cfg) ++ s.calls
    turns := script.map agentOf ++ s.turns }

/-- `Enqueue` of each byte in turn; the results are discarded, as `RX.STOP` does (R121). -/
def State.enqueueAll (s : State) : List Byte → State
  | [] => s
  | b :: bs => (s.enqueue b).2.enqueueAll bs

/-- `k` times `Dequeue`, with what they returned (R123). -/
def State.dequeueMany (s : State) : Nat → List Byte × State
  | 0 => ([], s)
  | k + 1 => (s.dequeue.1 :: (s.dequeue.2.dequeueMany k).1, (s.dequeue.2.dequeueMany k).2)

/-- `TRANSLATE` of each byte in turn, on the flags alone. -/
def translateAll (cfg : Config) (f : Flags) : List Byte → Flags
  | [] => f
  | sc :: rest => translateAll cfg (translateByte cfg sc f).flags rest

end Sys2Proof.Machine
end

