-- ==== Sys2Proof/Safety.lean ====
section
/-! DEFINITION. What a safe state is: the invariant of spec/10_state.md R14 over an allowed parameter record
(R158), and the words statements use. -/

namespace Sys2Proof.Machine

/-- The invariant of the line engine (R14) and of the two sequences, over a parameter record the spec allows. -/
structure State.Inv (s : State) : Prop where
  /-- no frame is in progress exactly in Idle, and then the counter is 0 and the data wire released -/
  idle : s.mode = .idle → s.pos.val = 0 ∧ s.datadrv = .released
  /-- positions 1 to 10 in receive, with the data wire released -/
  receiving : s.mode = .receiving → 1 ≤ s.pos.val ∧ s.pos.val ≤ 10 ∧ s.datadrv = .released
  /-- positions 1 to 11 in send -/
  sending : s.mode = .sending → 1 ≤ s.pos.val ∧ s.pos.val ≤ 11
  /-- the data wire is released once the stop bit is out (R103); R14 does not say it, and without it R14 is not kept
  by `TX.ACK` (log entry 10) -/
  stopped : s.mode = .sending → s.pos.val = 11 → s.datadrv = .released
  /-- the clock wire is released between operations -/
  clk : s.clkdrv = .released
  /-- the queue never exceeds its capacity -/
  queue : s.q.length ≤ s.cfg.n
  /-- at most two command bytes are pending -/
  pending : s.cmdp.length ≤ 2
  /-- the parameters are ones the spec allows -/
  cfg : s.cfg.Wf

/-- No frame in progress, no send waiting, nothing left to translate (spec/70_reset_and_hazards.md R236). -/
def State.Quiescent (s : State) : Prop := s.mode = .idle ∧ s.cmdp = [] ∧ s.q = []

/-- One step leads from `s` to `t`. -/
def Steps (s t : State) : Prop := step s = .next t

end Sys2Proof.Machine
end

