-- ==== Sys2Proof/Certificates/Slice0/Obligations.lean ====
section
/-! DEFINITION. The statements for the provers. Each docstring names the rule it formalises; a clause that rests on a
decision of the spec (spec/92_eei_decisions.md) or on a choice of the model (notes/assumptions) names it. A statement
whose conclusion is `exec i s = .next { s with … }` gives the whole next state, so it is its own frame: every field
not named is unchanged, and with it every byte of the queue, every table entry and every flag. -/

open Sys2Proof Sys2Proof.Machine

/-! ### Encoding -/

/-- Every well-formed operation's code decodes to the operation, with every operand at every value it can have
(R79; the operand places are the model's, log entry 7). -/
def Obligations.EveryOperationDecodesFromItsCode : Prop :=
  ∀ i : Instr, Sys2Proof.Laws.DecodeEncode.Statement i

/-- Words written out from the spec's encodings decode to the rows they stand for: the send frame of `0xED` and the
receive frame of `0x1C` (R60, R61, R63; vectors V1, V20), the key of `RX.DATA.3` (R73), `0x12` with and without the
break prefix (R65, R70), the LED update with CapsLock on (R71), and `SEND_COMMAND(0xF4)` (R79). -/
def Obligations.WrittenOutWordsDecodeToTheirRows : Prop :=
  decode Config.default ⟨.frameRx, 0b00000_1_0_00011100_0⟩ = .ok (.rxFrame false 0x1C false true) ∧
  decode Config.default ⟨.frameTx, 0b0000_0_1_1_11101101_0⟩ = .ok (.txFrame 0xED false) ∧
  decode Config.default ⟨.edge, 0b000000000_1_01_0011⟩ = .ok (.rxData3 true) ∧
  decode Config.default ⟨.sc, 0b00000_0_0_0_00010010⟩ = .ok .makeLshift ∧
  decode Config.default ⟨.sc, 0b00000_0_0_1_00010010⟩ = .ok .brkLshift ∧
  decode Config.default ⟨.cmd, 0b11101101_00000_1_0_0⟩ = .ok (.ledCommand true false false) ∧
  decode Config.default ⟨.op, 0b0000_11110100_0111⟩ = .ok (.sendCommand 0xF4)

/-- Outside the SC format, whose rows leave some context bits open, a code that decodes is the code its operation
encodes to: no two codes of a format stand for one operation, and no bit is dropped (R60, R61, R73, R71, R79). -/
def Obligations.CodesOutsideScAreUnique : Prop :=
  ∀ (cfg : Config) (c : Code) (i : Instr), c.fmt ≠ .sc → decode cfg c = .ok i → encode cfg i = c

/-- Decoding yields only well-formed operations, of the format of the code (R65, R79). -/
def Obligations.DecodingYieldsWellFormedRows : Prop :=
  ∀ (cfg : Config) (c : Code) (i : Instr), decode cfg c = .ok i → i.wf cfg = true ∧ i.format = c.fmt

/-! ### The step -/

/-- The step of a legal state runs the operation that the next code of the agent whose turn it is decodes to, if the
operation is that agent's (R75): the line's first event; the first of the foreground's operations that does not wait,
which passes over those that do (R48; log entries 1, 4). An operation of the other agent, which would be a second
caller, is refused (R182, R231, U11; log entry 33). So is an operation that is only a part of another: `ENQUEUE`,
`DEQUEUE` and `TRANSLATE`, which R75 says are not scheduled on their own, the scancode rows, which are what `TRANSLATE`
does inside `CONSUME` (log entry 12), and `TX.START`, which is only inside `SEND_START` (R73). -/
def Obligations.StepRunsTheDecodedOperation : Prop :=
  ∀ (s : State) (rest : List Agent) (c : Code) (i : Instr), s.legal = true → decode s.cfg c = .ok i →
    (enclosing i ≠ none ↔ (∃ b, i = .enqueue b) ∨ i = .dequeue ∨ (∃ sc, i = .translate sc) ∨ i.format = .sc ∨
      ∃ d, i = .txStart d) ∧
    (∀ after, s.turns = .line :: rest → s.events = c :: after →
      step s =
        if agentOf i ≠ .line then .refused .otherAgent
        else if enclosing i ≠ none then .refused .insideOnly
        else exec i { s with turns := rest, events := after }) ∧
    (∀ before after, s.turns = .foreground :: rest → s.calls = before ++ c :: after →
      (∀ x ∈ before, s.holds x = true) → s.holds c = false →
      step s =
        if agentOf i ≠ .foreground then .refused .otherAgent
        else if enclosing i ≠ none then .refused .insideOnly
        else exec i { s with turns := rest, calls := before ++ after })

/-- What a step does when there is no operation to run. A state is legal exactly if it meets R14, and from any other
the step is refused (R14, U9, D33; log entry 10). From a legal state: with no turn scheduled nothing happens, a turn of
an agent with nothing it can do passes (R236, log entry 3), and a code that is no operation, the line's first event or
the foreground's first call that does not wait, is refused by name (log entry 34). -/
def Obligations.StepWithNoOperationToRun : Prop :=
  ∀ s : State,
    (s.legal = true ↔
      (s.mode = .idle → s.pos.val = 0 ∧ s.datadrv = .released) ∧
      (s.mode = .receiving → 1 ≤ s.pos.val ∧ s.pos.val ≤ 10 ∧ s.datadrv = .released) ∧
      (s.mode = .sending → 1 ≤ s.pos.val ∧ s.pos.val ≤ 11) ∧
      s.clkdrv = .released ∧ s.q.length ≤ s.cfg.n ∧ s.cmdp.length ≤ 2) ∧
    (s.legal = false → step s = .refused .brokenState) ∧
    (s.legal = true → s.turns = [] → step s = .next s) ∧
    (∀ rest, s.legal = true → s.turns = .line :: rest → s.events = [] → step s = .next { s with turns := rest }) ∧
    (∀ rest, s.legal = true → s.turns = .foreground :: rest → (∀ x ∈ s.calls, s.holds x = true) →
      step s = .next { s with turns := rest }) ∧
    (∀ rest c after e, s.legal = true → s.turns = .line :: rest → s.events = c :: after →
      decode s.cfg c = .error e → step s = .refused (.illegalCode e)) ∧
    (∀ rest before c after e, s.legal = true → s.turns = .foreground :: rest → s.calls = before ++ c :: after →
      (∀ x ∈ before, s.holds x = true) → decode s.cfg c = .error e → step s = .refused (.illegalCode e))

/-- A word placed for the next step is the operation that the next step runs, in the state that selects it. For the word
of an operation that is only a part of another (R75, R73) it is the operation that performs it there: an edge for
`ENQUEUE`, `CONSUME` for `DEQUEUE`, `TRANSLATE` and the scancode rows, `SEND_START` for `TX.START` (log entries 2,
12). -/
def Obligations.PlacedWordRunsNext : Prop :=
  ∀ (s : State) (nbits w : Nat) (i : Instr), decode s.cfg (tableCode nbits w) = .ok i →
    (s.selecting i).legal = true →
    (enclosing i = none → (s.selecting i).holds (tableCode nbits w) = false →
      step (s.withFetchWord nbits w) = exec i (s.selecting i)) ∧
    (∀ b, i = .enqueue b → step (s.withFetchWord nbits w) = exec (.edge false) (s.selecting i)) ∧
    (i = .dequeue ∨ (∃ sc, i = .translate sc) ∨ i.format = .sc → s.cmdp = [] →
      step (s.withFetchWord nbits w) = exec .consume (s.selecting i)) ∧
    (∀ d, i = .txStart d → step (s.withFetchWord nbits w) = exec .sendStart (s.selecting i))

/-! ### Reset and invariants -/

/-- The state after reset meets the invariant of R14, over parameters that satisfy R158; the parameters themselves
are the model's default record (log entry 6). -/
def Obligations.ResetMeetsTheInvariant : Prop := State.reset.Inv

/-- The state after reset has the values of R23 (which are the spec's decision D22). -/
def Obligations.ResetHasTheStatedValues : Prop :=
  State.reset.pos = 0 ∧ State.reset.sr = 0x00 ∧ State.reset.mode = .idle ∧ State.reset.clkdrv = .released ∧
    State.reset.datadrv = .released ∧ State.reset.q = [] ∧ State.reset.cmdp = [] ∧
    State.reset.flags.word = 0x0000 ∧ State.reset.Quiescent

/-- The invariant of R14, with the clause that the data wire is released once the stop bit is out (log entry 10), is
kept by every step, from every state that meets it. -/
def Obligations.EveryStepKeepsTheInvariant : Prop :=
  ∀ s t : State, s.Inv → step s = .next t → t.Inv

/-- No operation and no step writes a parameter (the tables, the key codes), so every lookup in a table answers after
it what it answered before (R53, R22). -/
def Obligations.NothingWritesTheTables : Prop :=
  (∀ (i : Instr) (s t : State), exec i s = .next t → t.cfg = s.cfg) ∧
  (∀ s t : State, step s = .next t → t.cfg = s.cfg ∧
    ∀ sc : Byte, t.cfg.tNormal.read sc = s.cfg.tNormal.read sc ∧ t.cfg.tShift.read sc = s.cfg.tShift.read sc ∧
      t.cfg.tNum.read sc = s.cfg.tNum.read sc ∧ t.cfg.tExt.read sc = s.cfg.tExt.read sc)

/-- All transitions of MODE (R111): an edge moves Idle to Receiving, Receiving to Idle at position 10 and Sending to
Idle at position 11 and otherwise keeps the mode; `SEND_START` moves Idle to Sending when a byte is pending; `INIT`
moves any mode to Idle; and no other operation but the whole frames, which are edges and `SEND_START` in a row,
changes it. So nothing moves Receiving to Sending or Sending to Receiving. -/
def Obligations.ModeChangesOnlyAsListed : Prop :=
  ∀ (s : State), s.Inv →
    (∀ d t, exec (.edge d) s = .next t →
      t.mode = (match s.mode with
        | .idle => .receiving
        | .receiving => if s.pos.val = 10 then .idle else .receiving
        | .sending => if s.pos.val = 11 then .idle else .sending)) ∧
    (∀ t, exec .sendStart s = .next t → t.mode = if s.mode = .idle ∧ s.cmdp ≠ [] then .sending else s.mode) ∧
    (∀ k t, exec (.init k) s = .next t → t.mode = if k = .call ∧ s.cmdp ≠ [] then s.mode else .idle) ∧
    (∀ i t, i.edgeKey = none → i.format ≠ .frameRx → i.format ≠ .frameTx → (∀ d, i ≠ .edge d) → i ≠ .sendStart →
      (∀ k, i ≠ .init k) → exec i s = .next t → t.mode = s.mode)

/-- The interrupt context writes only the frame-assembly fields and appends to the queue (R201, R10): an edge, an edge
row, a received frame or `ENQUEUE` leaves the flags, `CMDP`, the clock wire and everything the model adds but the
shown results as they were, and every byte already queued stays where it is. -/
def Obligations.InterruptContextRights : Prop :=
  ∀ (i : Instr) (s t : State), agentOf i = .line → i ≠ .init .reset → exec i s = .next t →
    t.flags = s.flags ∧ t.cmdp = s.cmdp ∧ t.clkdrv = s.clkdrv ∧ t.cfg = s.cfg ∧ t.events = s.events ∧
      t.calls = s.calls ∧ t.turns = s.turns ∧ ∃ new, t.q = s.q ++ new

/-- The foreground context writes the flags, `CMDP` and the shown results and removes from the queue; the
frame-assembly fields it writes only where a send starts (`SEND_START`, and the send frame that begins with it) and
then only from Idle, and in `INIT` (R201, R107). -/
def Obligations.ForegroundContextRights : Prop :=
  ∀ (i : Instr) (s t : State), agentOf i = .foreground → i ≠ .init .call → exec i s = .next t →
    t.cfg = s.cfg ∧ t.events = s.events ∧ t.turns = s.turns ∧ (t.q = s.q ∨ t.q = s.q.tail) ∧
      (((i ≠ .sendStart ∧ ∀ b a, i ≠ .txFrame b a) ∨ s.mode ≠ .idle) →
        t.pos = s.pos ∧ t.sr = s.sr ∧ t.mode = s.mode ∧ t.clkdrv = s.clkdrv ∧ t.datadrv = s.datadrv)

/-- Every operation invoked by name answers a next state in every state that meets the invariant, on every operand,
and no operation at all faults (R190); that a held operation answers a state in which it waits is log entry 4. -/
def Obligations.EveryNamedOperationIsTotal : Prop :=
  (∀ (i : Instr) (s : State), s.Inv → i.format = .op → ∃ t, exec i s = .next t) ∧
  (∀ (i : Instr) (s : State) (f : Fault), exec i s ≠ .fault f)

/-- What has been shown to the outside is never taken back: every operation only adds to it (R7; the record is the
model's, log entry 5). -/
def Obligations.ShownResultsStay : Prop :=
  ∀ (i : Instr) (s t : State), exec i s = .next t → ∃ new, t.trace = new ++ s.trace

/-- Only the translator's operations and `INIT` write the flags, and only `INIT` clears the self-test flag
(R18, R133, R180). -/
def Obligations.OnlyTheTranslatorWritesFlags : Prop :=
  ∀ (i : Instr) (s t : State), exec i s = .next t → (∀ k, i ≠ .init k) →
    (s.flags.bat = true → t.flags.bat = true) ∧
    (i.format ≠ .sc → (∀ sc, i ≠ .translate sc) → i ≠ .consume → i ≠ .poll → t.flags = s.flags)

/-! ### The edge -/

/-- The response to `EDGE(d)` is the row that the pair (MODE, POS) selects (R73). -/
def Obligations.EdgeRunsTheSelectedRow : Prop :=
  ∀ (s : State) (d : Bool),
    (s.mode = .idle → s.pos.val = 0 → exec (.edge d) s = exec (.rxStart d) s) ∧
    (∀ k : Fin 8, s.mode = .receiving → s.pos.val = k.val + 1 → exec (.edge d) s = exec (Instr.rxData k d) s) ∧
    (s.mode = .receiving → s.pos.val = 9 → exec (.edge d) s = exec (.rxParity d) s) ∧
    (s.mode = .receiving → s.pos.val = 10 → exec (.edge d) s = exec (.rxStop d) s) ∧
    (s.mode = .sending → s.pos.val = 0 → exec (.edge d) s = exec (.txStart d) s) ∧
    (∀ k : Fin 8, s.mode = .sending → s.pos.val = k.val + 1 → exec (.edge d) s = exec (Instr.txData k d) s) ∧
    (s.mode = .sending → s.pos.val = 9 → exec (.edge d) s = exec (.txParity d) s) ∧
    (s.mode = .sending → s.pos.val = 10 → exec (.edge d) s = exec (.txStop d) s) ∧
    (s.mode = .sending → s.pos.val = 11 → exec (.edge d) s = exec (.txAck d) s)

/-- An edge row is no response in another pair than its own (R73; log entry 9), and an edge has none in a pair that
R73 does not list (R14, U9; log entry 10). -/
def Obligations.EdgeRowStopsOutsideItsPair : Prop :=
  (∀ (i : Instr) (s : State) (m : Mode) (p : Fin 12), i.edgeKey = some (m, p) → ¬(s.mode = m ∧ s.pos = p) →
    exec i s = .refused .notSelected) ∧
  (∀ (s : State) (d : Bool), (s.mode = .idle ∧ s.pos.val ≠ 0) ∨
    (s.mode = .receiving ∧ (s.pos.val = 0 ∨ s.pos.val = 11)) → exec (.edge d) s = .refused .unreachablePair)

/-- The level of an edge matters at the eight data positions of a receive frame, where the two levels lead to
different states if the bit is still clear (R92), and nowhere else (U5, R91, R93, R94, R100 to R104). -/
def Obligations.LevelsMatterOnlyAtDataPositions : Prop :=
  ∀ s : State,
    (∀ k : Fin 8, s.mode = .receiving → s.pos.val = k.val + 1 → s.sr.getLsbD k.val = false →
      ∃ t u, exec (.edge true) s = .next t ∧ exec (.edge false) s = .next u ∧
        t.sr.getLsbD k.val = true ∧ u.sr.getLsbD k.val = false) ∧
    (¬(s.mode = .receiving ∧ 1 ≤ s.pos.val ∧ s.pos.val ≤ 8) → exec (.edge true) s = exec (.edge false) s)

/-- In every pair (MODE, POS) that R73 lists an edge has a response, and it reads neither the flags nor `CMDP` nor any
input still to come: a state that differs only there has the same response, and the difference is carried over
unchanged (R90, R201, R198). -/
def Obligations.EdgeIgnoresTheForeground : Prop :=
  ∀ (s : State) (d : Bool), (edgeRow s.mode s.pos.val d).isSome = true →
    ∃ t, exec (.edge d) s = .next t ∧
      ∀ (f : Flags) (c : List Byte) (calls events : List Code) (turns : List Agent),
        exec (.edge d) { s with flags := f, cmdp := c, calls := calls, events := events, turns := turns } =
          .next { t with flags := f, cmdp := c, calls := calls, events := events, turns := turns }

/-! ### Receive -/

/-- `RX.START` (R91; the clearing of `SR` and the move to Receiving are the spec's decisions D5 and D6). -/
def Obligations.RxStartBeginsAFrame : Prop :=
  ∀ (s : State) (d : Bool), s.mode = .idle → s.pos.val = 0 →
    exec (.rxStart d) s = .next { s with sr := 0x00, mode := .receiving, pos := 1 }

/-- `RX.DATA.1` to `RX.DATA.8` (R92): at position `k + 1` the sampled level is OR'd into bit `k`, the other bits and
every other field stay, and the position advances by 1. -/
def Obligations.RxDataOrsOneBit : Prop :=
  ∀ (s : State) (k : Fin 8) (d : Bool), s.mode = .receiving → s.pos.val = k.val + 1 →
    ∃ t, exec (Instr.rxData k d) s = .next t ∧ t = { s with sr := t.sr, pos := t.pos } ∧
      t.pos.val = k.val + 2 ∧
      ∀ j : Nat, t.sr.getLsbD j = (s.sr.getLsbD j || (decide (j = k.val) && d))

/-- `RX.PARITY` (R93) and `RX.STOP` (R94, with `Enqueue` of R121): the parity level is ignored; at the stop bit the
byte is queued if there is room and lost if not, and the frame is over. -/
def Obligations.RxParityAndStop : Prop :=
  ∀ (s : State) (d : Bool), s.mode = .receiving →
    (s.pos.val = 9 → exec (.rxParity d) s = .next { s with pos := 10 }) ∧
    (s.pos.val = 10 → s.q.length < s.cfg.n →
      exec (.rxStop d) s = .next { s with q := s.q ++ [s.sr], pos := 0, mode := .idle }) ∧
    (s.pos.val = 10 → s.cfg.n ≤ s.q.length →
      exec (.rxStop d) s = .next { s with pos := 0, mode := .idle })

/-- A whole receive frame from Idle (R95): whatever the start, parity and stop levels, the byte is in `SR` and at the
tail of the queue if there was room. Eleven edges in one operation is log entry 11. -/
def Obligations.RxFrameReceivesItsByte : Prop :=
  ∀ (s : State) (start parityBit stop : Bool) (b : Byte), s.mode = .idle → s.pos.val = 0 →
    exec (.rxFrame start b parityBit stop) s =
      .next { s with
        sr := b
        mode := .idle
        pos := 0
        q := if s.q.length < s.cfg.n then s.q ++ [b] else s.q }

/-- `RXFRAME` is its expansion (R77): from a state that meets the invariant, eleven steps with eleven scheduled `EDGE`
operations lead where the one operation leads. R77 requires Idle at the start; that the frame is one operation, and
that it is performed in the other modes too as the eleven edges it is, is log entry 11, and the schedule is log
entry 1. -/
def Obligations.RxFrameIsElevenEdges : Prop :=
  ∀ (s : State) (start parityBit stop : Bool) (b : Byte), s.Inv →
    Host.Core.run Sys2Proof.core 11 (s.queued (rxRaw start parityBit stop b)) =
      exec (.rxFrame start b parityBit stop) s

/-! ### Send -/

/-- `TX.START` (R100, D9) and `TX.DATA.1` to `TX.DATA.8` (R101): at position `k + 1` bit `k` of `SR` is put on the
data wire, 1 by releasing it (D10), and `SR` stays (D11). -/
def Obligations.TxStartAndData : Prop :=
  ∀ (s : State) (d : Bool), s.mode = .sending →
    (s.pos.val = 0 → exec (.txStart d) s = .next { s with pos := 1 }) ∧
    (∀ k : Fin 8, s.pos.val = k.val + 1 →
      exec (Instr.txData k d) s =
        .next { s with
          datadrv := if s.sr.getLsbD k.val then .released else .low
          trace := .data (if s.sr.getLsbD k.val then .released else .low) :: s.trace
          pos := ⟨k.val + 2, by omega⟩ })

/-- `TX.PARITY` (R102, with the odd parity of R63: the wire is released when the byte has an even number of 1 bits),
`TX.STOP` (R103) and `TX.ACK` (R104). -/
def Obligations.TxParityStopAndAck : Prop :=
  ∀ (s : State) (d : Bool), s.mode = .sending →
    (s.pos.val = 9 → ∀ ones : Nat, ones = ((List.range 8).filter (fun k => s.sr.getLsbD k)).length →
      exec (.txParity d) s =
        .next { s with
          datadrv := if ones % 2 = 0 then .released else .low
          trace := .data (if ones % 2 = 0 then .released else .low) :: s.trace
          pos := 10 }) ∧
    (s.pos.val = 10 → exec (.txStop d) s =
      .next { s with datadrv := .released, trace := .data .released :: s.trace, pos := 11 }) ∧
    (s.pos.val = 11 → exec (.txAck d) s = .next { s with mode := .idle, pos := 0 })

/-- `SEND_START` (R107; the order of the wires, the folded edge, the one atomic step and the start from Idle only are
the spec's decisions D7, D8, D28, D12), and its last part: the response `TX.START` to the edge it makes itself, in the
pair (Sending, 0) that exists only here (R14, R73). -/
def Obligations.SendStartBeginsASend : Prop :=
  ∀ (s : State) (b : Byte) (rest : List Byte), s.cmdp = b :: rest → s.mode = .idle →
    ∀ inside : State, inside = { s with
      cmdp := rest
      sr := b
      mode := .sending
      pos := 0
      clkdrv := .released
      datadrv := .low
      trace := .clk .released :: .data .low :: .rts s.cfg.rtsHold :: .clk .low :: s.trace } →
    exec .sendStart s = .next { inside with pos := 1 } ∧ ∀ d, exec .sendStart s = exec (.txStart d) inside

/-- `SEND_START` and a send frame wait while nothing is pending or a frame is in progress (R107, R171): nothing of the
block changes (that the call goes back to the foreground's operations is log entry 4). A send frame of another byte
than the pending one is none the block sends (log entry 9). -/
def Obligations.SendsWaitForIdle : Prop :=
  ∀ (s : State) (b : Byte) (ack : Bool),
    (s.cmdp = [] ∨ s.mode ≠ .idle →
      exec .sendStart s = .next { s with calls := encode s.cfg .sendStart :: s.calls } ∧
      exec (.txFrame b ack) s = .next { s with calls := encode s.cfg (.txFrame b ack) :: s.calls }) ∧
    (∀ c rest, s.cmdp = c :: rest → s.mode = .idle → c ≠ b → exec (.txFrame b ack) s = .refused .notSelected)

/-- A whole send frame (R105, R61): what the block puts on the wires in turn, and the state it ends in. The frame in
one operation is log entry 11; the rules under it rest on D7 to D11 and D28. -/
def Obligations.TxFrameSendsItsByte : Prop :=
  ∀ (s : State) (b : Byte) (rest : List Byte) (ack : Bool), s.cmdp = b :: rest → s.mode = .idle →
    exec (.txFrame b ack) s =
      .next { s with
        cmdp := rest
        sr := b
        mode := .idle
        pos := 0
        clkdrv := .released
        datadrv := .released
        trace :=
          .data .released :: .data (driveOf (parity b)) ::
            (((wireBits b).map (fun x => Obs.data (driveOf x))).reverse ++
              .clk .released :: .data .low :: .rts s.cfg.rtsHold :: .clk .low :: s.trace) }

/-- `TXFRAME` is its expansion: from a state that meets the invariant and has the byte pending in Idle, `SEND_START`
and eleven scheduled edges, ten of any levels and the last with the acknowledge level, lead where the one operation
leads (R61, R77, R105). That the frame is one operation is log entry 11, and the schedule is log entry 1. -/
def Obligations.TxFrameIsSendStartAndElevenEdges : Prop :=
  ∀ (s : State) (b : Byte) (rest : List Byte) (levels : List Bool) (ack : Bool), s.Inv → s.cmdp = b :: rest →
    s.mode = .idle → levels.length = 10 →
    Host.Core.run Sys2Proof.core 12 (s.queued (.sendStart :: txClock levels ack)) = exec (.txFrame b ack) s

/-- After `SEND_START` any eleven edges end the send, and nothing but the number of edges matters (R105, R104). -/
def Obligations.AnyElevenEdgesEndASend : Prop :=
  ∀ (s t : State) (levels : List Bool), s.cmdp ≠ [] → s.mode = .idle → exec .sendStart s = .next t →
    levels.length = 11 →
    ∃ u, t.takeEdges levels = .next u ∧ u.mode = .idle ∧ u.pos = 0 ∧ u.datadrv = .released ∧ u.sr = t.sr ∧
      u = { t with mode := u.mode, pos := u.pos, datadrv := u.datadrv, trace := u.trace }

/-! ### The queue -/

/-- `Enqueue(b)` (R121): appended when there is room, else discarded with the queue as it was. That the result is
shown when the operation is performed on its own is log entry 12. -/
def Obligations.EnqueueAppendsOrDiscards : Prop :=
  ∀ (s : State) (b : Byte),
    (s.q.length < s.cfg.n →
      exec (.enqueue b) s = .next { s with q := s.q ++ [b], trace := .enqueue true :: s.trace }) ∧
    (s.cfg.n ≤ s.q.length → exec (.enqueue b) s = .next { s with trace := .enqueue false :: s.trace })

/-- `Dequeue()` (R123): the oldest entry is removed and returned; the empty queue returns `0x00` (decision D25) and
stays. That the result is shown is log entry 12. -/
def Obligations.DequeueRemovesTheOldest : Prop :=
  ∀ s : State,
    (∀ b rest, s.q = b :: rest → exec .dequeue s = .next { s with q := rest, trace := .dequeue b :: s.trace }) ∧
    (s.q = [] → exec .dequeue s = .next { s with trace := .dequeue 0x00 :: s.trace })

/-- The laws of the queue (R124): bytes within the capacity come out in the order they went in, each once, behind
what was there; beyond it nothing changes; the queue never grows past its capacity. -/
def Obligations.QueueIsFirstInFirstOut : Prop :=
  (∀ (s : State) (bs : List Byte), s.q.length + bs.length ≤ s.cfg.n →
    ((s.enqueueAll bs).dequeueMany (s.q.length + bs.length)).1 = s.q ++ bs ∧
      ((s.enqueueAll bs).dequeueMany (s.q.length + bs.length)).2.q = []) ∧
  (∀ (s : State) (bs : List Byte), s.cfg.n ≤ s.q.length → s.enqueueAll bs = s) ∧
  (∀ (s : State) (bs : List Byte), s.q.length ≤ s.cfg.n → (s.enqueueAll bs).q.length ≤ s.cfg.n)

/-- The ring buffer (R125) implements the queue: the reset ring, whatever its cells hold, stands for the empty queue,
which is the queue after reset (R23), and on rings that stand for the queue both accesses return what the abstract ones
return and leave rings that stand for the queue after them. -/
def Obligations.RingBufferImplementsTheQueue : Prop :=
  (∀ (n : Nat) (mem : List Byte), 1 ≤ n → mem.length = n →
    (Ring.reset mem).Wf n ∧ (Ring.reset mem).contents = State.reset.q ∧ State.reset.q = []) ∧
  ∀ (s : State) (r : Ring) (b : Byte), r.Wf s.cfg.n → r.contents = s.q →
    ((r.enqueue b).1 = (s.enqueue b).1 ∧ (r.enqueue b).2.Wf s.cfg.n ∧
      (r.enqueue b).2.contents = (s.enqueue b).2.q) ∧
    (r.dequeue.1 = s.dequeue.1 ∧ r.dequeue.2.Wf s.cfg.n ∧ r.dequeue.2.contents = s.dequeue.2.q)

/-! ### The translator -/

/-- The fixed bytes (R131, R132, R133), in every context: one flag is set, no character. That a row shows the result
of the `CONSUME` it belongs to is log entry 12. -/
def Obligations.FixedBytesSetTheirFlag : Prop :=
  ∀ s : State, s.cmdp = [] →
    exec .extPrefix s =
      .next { s with flags := { s.flags with ext := true }, trace := .consume .nochar :: s.trace } ∧
    exec .breakPrefix s =
      .next { s with flags := { s.flags with brk := true }, trace := .consume .nochar :: s.trace } ∧
    exec .batOk s =
      .next { s with flags := { s.flags with bat := true }, trace := .consume .nochar :: s.trace }

/-- The byte `0x00` is taken for "empty" (R156, R123; decision D25): the row `SC.EMPTY`, a `CONSUME` of the empty
queue, and a `CONSUME` of an entry `0x00`, which is removed all the same. No flag changes. -/
def Obligations.ZeroByteReadsAsEmpty : Prop :=
  ∀ s : State, s.cmdp = [] →
    exec .scEmpty s = .next { s with trace := .consume .empty :: s.trace } ∧
    (s.q = [] → exec .consume s = .next { s with trace := .consume .empty :: s.trace }) ∧
    (∀ rest, s.q = 0x00 :: rest →
      exec .consume s = .next { s with q := rest, trace := .consume .empty :: s.trace })

/-- Break context (R134 to R139): both prefix flags are cleared, a modifier's flag or the lock latch is cleared, and
no character is emitted. -/
def Obligations.BreakRows : Prop :=
  ∀ s : State, s.cmdp = [] → s.flags.brk = true →
    ∀ f : Flags, f = { s.flags with brk := false, ext := false } →
    ∀ done : Flags → State, done = (fun g => { s with flags := g, trace := .consume .nochar :: s.trace }) →
    exec .brkLshift s = .next (done { f with shift := false }) ∧
    exec .brkRshift s = .next (done { f with shift := false }) ∧
    exec .brkCtrl s = .next (done { f with ctrl := false }) ∧
    exec .brkAlt s = .next (done { f with alt := false }) ∧
    exec .brkCaps s = .next (done { f with lockpend := false }) ∧
    exec .brkNum s = .next (done { f with lockpend := false }) ∧
    exec .brkScroll s = .next (done { f with lockpend := false }) ∧
    (∀ sc, (Instr.brkOther sc).wf s.cfg = true → exec (.brkOther sc) s = .next (done f))

/-- Extended context (R140 to R143, R153): the prefix flag is cleared; Ctrl and Alt set their flag; every other key is
looked up in `T_EXT` and emitted as the table gives it, or nothing is. -/
def Obligations.ExtendedRows : Prop :=
  ∀ s : State, s.cmdp = [] → s.flags.brk = false → s.flags.ext = true →
    exec .extCtrl s =
      .next { s with flags := { s.flags with ext := false, ctrl := true }, trace := .consume .nochar :: s.trace } ∧
    exec .extAlt s =
      .next { s with flags := { s.flags with ext := false, alt := true }, trace := .consume .nochar :: s.trace } ∧
    (∀ sc, (Instr.extOther sc).wf s.cfg = true →
      (∀ c, s.cfg.tExt.read sc = some c → exec (.extOther sc) s =
        .next { s with flags := { s.flags with ext := false }, trace := .consume (.char c) :: s.trace }) ∧
      (s.cfg.tExt.read sc = none → exec (.extOther sc) s =
        .next { s with flags := { s.flags with ext := false }, trace := .consume .nochar :: s.trace }))

/-- Plain make of the modifiers (R144 to R146): the flag is set, no character. -/
def Obligations.PlainModifierRows : Prop :=
  ∀ s : State, s.cmdp = [] → s.flags.brk = false → s.flags.ext = false →
    exec .makeLshift s =
      .next { s with flags := { s.flags with shift := true }, trace := .consume .nochar :: s.trace } ∧
    exec .makeRshift s =
      .next { s with flags := { s.flags with shift := true }, trace := .consume .nochar :: s.trace } ∧
    exec .makeCtrl s =
      .next { s with flags := { s.flags with ctrl := true }, trace := .consume .nochar :: s.trace } ∧
    exec .makeAlt s =
      .next { s with flags := { s.flags with alt := true }, trace := .consume .nochar :: s.trace }

/-- What `TRANSLATE` makes of the three fixed bytes (R131, R132, R133) and, in break context, of each class of key
(R134 to R139): the flags it leaves, no character, no LED request. -/
def Obligations.TranslateFixedBytesAndBreaks : Prop :=
  ∀ (cfg : Config) (f : Flags), cfg.Wf →
    translateByte cfg 0xE0 f = ⟨{ f with ext := true }, none, false⟩ ∧
    translateByte cfg 0xF0 f = ⟨{ f with brk := true }, none, false⟩ ∧
    translateByte cfg 0xAA f = ⟨{ f with bat := true }, none, false⟩ ∧
    (f.brk = true → ∀ g : Flags, g = { f with brk := false, ext := false } →
      translateByte cfg cfg.scLshift f = ⟨{ g with shift := false }, none, false⟩ ∧
      translateByte cfg cfg.scRshift f = ⟨{ g with shift := false }, none, false⟩ ∧
      translateByte cfg cfg.scCtrl f = ⟨{ g with ctrl := false }, none, false⟩ ∧
      translateByte cfg cfg.scAlt f = ⟨{ g with alt := false }, none, false⟩ ∧
      translateByte cfg cfg.scCaps f = ⟨{ g with lockpend := false }, none, false⟩ ∧
      translateByte cfg cfg.scNum f = ⟨{ g with lockpend := false }, none, false⟩ ∧
      translateByte cfg cfg.scScroll f = ⟨{ g with lockpend := false }, none, false⟩ ∧
      ∀ sc : Byte, sc ∉ [cfg.scLshift, cfg.scRshift, cfg.scCtrl, cfg.scAlt, cfg.scCaps, cfg.scNum, cfg.scScroll,
          0xE0, 0xF0, 0xAA] → translateByte cfg sc f = ⟨g, none, false⟩)

/-- What `TRANSLATE` makes of each class of key in extended context (R140 to R143) and in plain context (R144 to R153):
the flags it leaves, the character if any, and the LED request. A lock key toggles with the latch clear (R147 to R149);
with the latch set it is looked up as an ordinary key is (R150, decision D26): in the one table that Shift and then
NumLock choose (R151, decision D17), a lowercase letter folded (R152, decision D18). -/
def Obligations.TranslateExtendedAndPlainMakes : Prop :=
  ∀ (cfg : Config) (f : Flags), cfg.Wf → f.brk = false →
    (f.ext = true →
      translateByte cfg cfg.scCtrl f = ⟨{ f with ext := false, ctrl := true }, none, false⟩ ∧
      translateByte cfg cfg.scAlt f = ⟨{ f with ext := false, alt := true }, none, false⟩ ∧
      ∀ sc : Byte, sc ∉ [cfg.scCtrl, cfg.scAlt, 0xE0, 0xF0, 0xAA] →
        translateByte cfg sc f = ⟨{ f with ext := false }, cfg.tExt.read sc, false⟩) ∧
    (f.ext = false →
      translateByte cfg cfg.scLshift f = ⟨{ f with shift := true }, none, false⟩ ∧
      translateByte cfg cfg.scRshift f = ⟨{ f with shift := true }, none, false⟩ ∧
      translateByte cfg cfg.scCtrl f = ⟨{ f with ctrl := true }, none, false⟩ ∧
      translateByte cfg cfg.scAlt f = ⟨{ f with alt := true }, none, false⟩ ∧
      (f.lockpend = false →
        translateByte cfg cfg.scCaps f = ⟨{ f with caps := !f.caps, lockpend := true }, none, true⟩ ∧
        translateByte cfg cfg.scNum f = ⟨{ f with num := !f.num, lockpend := true }, none, true⟩ ∧
        translateByte cfg cfg.scScroll f = ⟨{ f with scroll := !f.scroll, lockpend := true }, none, true⟩) ∧
      ∀ result : Byte → Option Byte,
      result = (fun sc =>
        match (if f.shift then cfg.tShift else if f.num then cfg.tNum else cfg.tNormal).read sc with
        | none => none
        | some c =>
          if 0x61 ≤ c.toNat ∧ c.toNat ≤ 0x7A ∧ f.shift ≠ f.caps then some (BitVec.ofNat 8 (c.toNat - 0x20))
          else some c) →
      (f.lockpend = true → ∀ sc ∈ [cfg.scCaps, cfg.scNum, cfg.scScroll],
        translateByte cfg sc f = ⟨f, result sc, false⟩) ∧
      ∀ sc : Byte, sc ∉ [cfg.scLshift, cfg.scRshift, cfg.scCtrl, cfg.scAlt, cfg.scCaps, cfg.scNum, cfg.scScroll,
          0xE0, 0xF0, 0xAA] → translateByte cfg sc f = ⟨f, result sc, false⟩)

/-- `TRANSLATE` of a lock key's code in plain context with the latch clear (R147 to R149): the lock flag toggles, the
latch is set, an LED update is asked for, and no character is emitted. -/
def Obligations.TranslateTogglesTheLock : Prop :=
  ∀ s : State, s.cfg.Wf → s.flags.brk = false → s.flags.ext = false → s.flags.lockpend = false →
    exec (.translate s.cfg.scCaps) s =
      .next { s with
        flags := { s.flags with caps := !s.flags.caps, lockpend := true }
        trace := .translate none true :: s.trace } ∧
    exec (.translate s.cfg.scNum) s =
      .next { s with
        flags := { s.flags with num := !s.flags.num, lockpend := true }
        trace := .translate none true :: s.trace } ∧
    exec (.translate s.cfg.scScroll) s =
      .next { s with
        flags := { s.flags with scroll := !s.flags.scroll, lockpend := true }
        trace := .translate none true :: s.trace }

/-- The lock rows (R147 to R149) with the LED update that `CONSUME` makes of the request (R155, R156): the two bytes
wait in `CMDP`, the second with the flags after the toggle at the bits of R71 (decision D21). -/
def Obligations.LockRowsAskForTheLeds : Prop :=
  ∀ s : State, s.cmdp = [] → s.flags.brk = false → s.flags.ext = false → s.flags.lockpend = false →
    ∀ led : Bool → Bool → Bool → Byte,
    led = (fun c n l =>
      BitVec.ofNat 8 ((if c then 4 else 0) + (if n then 2 else 0) + (if l then 1 else 0))) →
    exec .makeCaps s =
      .next { s with
        flags := { s.flags with caps := !s.flags.caps, lockpend := true }
        cmdp := [s.cfg.cmdSetLeds, led (!s.flags.caps) s.flags.num s.flags.scroll]
        trace := .consume .nochar :: s.trace } ∧
    exec .makeNum s =
      .next { s with
        flags := { s.flags with num := !s.flags.num, lockpend := true }
        cmdp := [s.cfg.cmdSetLeds, led s.flags.caps (!s.flags.num) s.flags.scroll]
        trace := .consume .nochar :: s.trace } ∧
    exec .makeScroll s =
      .next { s with
        flags := { s.flags with scroll := !s.flags.scroll, lockpend := true }
        cmdp := [s.cfg.cmdSetLeds, led s.flags.caps s.flags.num (!s.flags.scroll)]
        trace := .consume .nochar :: s.trace }

/-- Lookups (R151, R152, R153; R150 for a lock key with the latch set): one table, chosen by Shift and then NumLock
(decision D17), a lowercase letter folded by Shift XOR CapsLock (D18), nothing where the table has no entry; no flag
is written. That a latched lock key is looked up is decision D26, and that a row performed on its own shows the result
of the `CONSUME` it belongs to is log entry 12. -/
def Obligations.LookupRows : Prop :=
  ∀ s : State, s.cmdp = [] → s.flags.brk = false → s.flags.ext = false →
    ∀ result : Byte → ConsumeResult,
    result = (fun sc =>
      match (if s.flags.shift then s.cfg.tShift else if s.flags.num then s.cfg.tNum else s.cfg.tNormal).read sc with
      | none => .nochar
      | some c =>
        if 0x61 ≤ c.toNat ∧ c.toNat ≤ 0x7A ∧ s.flags.shift ≠ s.flags.caps then .char (BitVec.ofNat 8 (c.toNat - 0x20))
        else .char c) →
    (∀ sc, (Instr.makeOther sc).wf s.cfg = true →
      exec (.makeOther sc) s = .next { s with trace := .consume (result sc) :: s.trace }) ∧
    (s.flags.lockpend = true →
      exec .makeCapsLatched s = .next { s with trace := .consume (result s.cfg.scCaps) :: s.trace } ∧
      exec .makeNumLatched s = .next { s with trace := .consume (result s.cfg.scNum) :: s.trace } ∧
      exec .makeScrollLatched s = .next { s with trace := .consume (result s.cfg.scScroll) :: s.trace })

/-- A scancode row is no row of another prefix context, latch state or class than its own (R130, R70; log
entry 9). -/
def Obligations.ScRowStopsOutsideItsContext : Prop :=
  ∀ (s : State) (sc : Byte), s.cmdp = [] →
    (s.flags.brk = false → ∀ i ∈ [Instr.brkLshift, .brkRshift, .brkCtrl, .brkAlt, .brkCaps, .brkNum, .brkScroll,
      .brkOther sc], exec i s = .refused .notSelected) ∧
    (s.flags.brk = true ∨ s.flags.ext = false → ∀ i ∈ [Instr.extCtrl, .extAlt, .extOther sc],
      exec i s = .refused .notSelected) ∧
    (s.flags.brk = true ∨ s.flags.ext = true → ∀ i ∈ [Instr.makeLshift, .makeRshift, .makeCtrl, .makeAlt, .makeCaps,
      .makeNum, .makeScroll, .makeCapsLatched, .makeNumLatched, .makeScrollLatched, .makeOther sc],
      exec i s = .refused .notSelected) ∧
    (s.flags.lockpend = true → ∀ i ∈ [Instr.makeCaps, .makeNum, .makeScroll], exec i s = .refused .notSelected) ∧
    (s.flags.lockpend = false → ∀ i ∈ [Instr.makeCapsLatched, .makeNumLatched, .makeScrollLatched],
      exec i s = .refused .notSelected) ∧
    (∀ i ∈ [Instr.brkOther sc, .extOther sc, .makeOther sc], i.wf s.cfg = false →
      exec i s = .refused .notSelected)

/-- `CONSUME` removes the oldest byte and runs the row that the byte and the flags select (R156, R130, R79), and it
answers a next state whatever they are. -/
def Obligations.ConsumeRunsTheSelectedRow : Prop :=
  ∀ (s : State) (sc : Byte) (rest : List Byte), s.cmdp = [] → s.q = sc :: rest →
    exec .consume s =
      exec (scRow s.cfg sc s.flags.brk s.flags.ext s.flags.lockpend) { s with q := rest } ∧
    ∃ t, exec .consume s = .next t ∧ t.q = rest

/-- One turn of `POLL` (R157) beside the `CONSUME` it makes: on `empty` it returns none, on a character the character,
and on `nochar` it goes round again, as the foreground's next operation (log entry 13). -/
def Obligations.PollRepeatsConsume : Prop :=
  ∀ s : State, s.cmdp = [] → ∃ t r, exec .consume s = .next t ∧ t.trace = .consume r :: s.trace ∧
    exec .poll s = .next
      (match r with
      | .empty => { t with trace := .poll none :: s.trace }
      | .char c => { t with trace := .poll (some c) :: s.trace }
      | .nochar => { t with trace := s.trace, calls := encode s.cfg .poll :: s.calls })

/-- `TRANSLATE(sc)` is total, writes only the flags, answers what the translator makes of the byte (R130), and moves the
prefix state as the table of R159 says: a prefix
byte sets its flag, `0xAA` leaves both and sets the self-test flag, every other byte clears both; and only a key
outside break context can emit a character (R130, R159). That the results are shown is log entry 12. -/
def Obligations.TranslateMovesThePrefixState : Prop :=
  ∀ (s : State) (sc : Byte), ∃ t r led, exec (.translate sc) s = .next t ∧
    t = { s with flags := t.flags, trace := .translate r led :: s.trace } ∧
    translateByte s.cfg sc s.flags = ⟨t.flags, r, led⟩ ∧
    (sc = 0xE0 → t.flags = { s.flags with ext := true } ∧ r = none ∧ led = false) ∧
    (sc = 0xF0 → t.flags = { s.flags with brk := true } ∧ r = none ∧ led = false) ∧
    (sc = 0xAA → t.flags = { s.flags with bat := true } ∧ r = none ∧ led = false) ∧
    (sc ≠ 0xE0 → sc ≠ 0xF0 → sc ≠ 0xAA → t.flags.brk = false ∧ t.flags.ext = false) ∧
    (r.isSome = true → sc ≠ 0xE0 ∧ sc ≠ 0xF0 ∧ sc ≠ 0xAA ∧ s.flags.brk = false)

/-- In extended context only `T_EXT` is read, and in break context no table is (R143, R134, R160 (c), (d)): a machine
with other tables consumes the same byte with the same result. -/
def Obligations.PrefixedKeysReadOnlyTheExtendedTable : Prop :=
  ∀ (s t : State) (normal shift num ext : Rom), exec .consume s = .next t →
    (s.flags.brk = true ∨ s.flags.ext = true ∧ ext = s.cfg.tExt) → s.cmdp = [] →
    ∀ other : Config, other = { s.cfg with tNormal := normal, tShift := shift, tNum := num, tExt := ext } →
    exec .consume { s with cfg := other } = .next { t with cfg := other }

/-- Case folding of the alphabetic scancodes with NumLock off (R152, R160 (b), with the table constraint TC2 of R158):
uppercase exactly when Shift XOR CapsLock. The one table is decision D17 and the ASCII range decision D18 (log
entry 21), and that a row performed on its own shows the result of the `CONSUME` it belongs to is log entry 12. -/
def Obligations.LettersFoldByShiftXorCaps : Prop :=
  ∀ (s : State) (sc c : Byte), s.cfg.Wf → s.cmdp = [] → s.flags.brk = false → s.flags.ext = false →
    s.flags.num = false → (Instr.makeOther sc).wf s.cfg = true → s.cfg.tNormal.read sc = some c →
    0x61 ≤ c.toNat → c.toNat ≤ 0x7A →
    exec (.makeOther sc) s = .next { s with
      trace := .consume (.char (if s.flags.shift = s.flags.caps then c else BitVec.ofNat 8 (c.toNat - 0x20)))
        :: s.trace }

/-- The latch (R147 to R150, R138, R160 (e)): however often a held lock key repeats its make code, the lock flag
toggles once; the release clears the latch and leaves the lock flag. -/
def Obligations.HeldLockKeyTogglesOnce : Prop :=
  ∀ (cfg : Config) (f : Flags) (k : Nat), cfg.Wf → f.brk = false → f.ext = false → f.lockpend = false →
    (translateAll cfg f (List.replicate (k + 1) cfg.scCaps) = { f with caps := !f.caps, lockpend := true } ∧
      translateAll cfg f (List.replicate (k + 1) cfg.scCaps ++ [0xF0, cfg.scCaps]) = { f with caps := !f.caps }) ∧
    (translateAll cfg f (List.replicate (k + 1) cfg.scNum) = { f with num := !f.num, lockpend := true } ∧
      translateAll cfg f (List.replicate (k + 1) cfg.scNum ++ [0xF0, cfg.scNum]) = { f with num := !f.num }) ∧
    (translateAll cfg f (List.replicate (k + 1) cfg.scScroll) = { f with scroll := !f.scroll, lockpend := true } ∧
      translateAll cfg f (List.replicate (k + 1) cfg.scScroll ++ [0xF0, cfg.scScroll]) =
        { f with scroll := !f.scroll })

/-- Ctrl, Alt, ScrollLock and the self-test flag change no character and no LED request (R154). -/
def Obligations.SomeFlagsChangeNoCharacter : Prop :=
  ∀ (cfg : Config) (sc : Byte) (f : Flags) (ctrl alt scroll bat : Bool),
    (translateByte cfg sc { f with ctrl := ctrl, alt := alt, scroll := scroll, bat := bat }).char =
        (translateByte cfg sc f).char ∧
      (translateByte cfg sc { f with ctrl := ctrl, alt := alt, scroll := scroll, bat := bat }).ledreq =
        (translateByte cfg sc f).ledreq

/-! ### Host operations -/

/-- `SEND_COMMAND(b)` (R172) and `SET_LEDS(caps, num, scroll)` (R175): the bytes wait in `CMDP`, and no flag is written
(decision D32); the LED byte has CapsLock, NumLock, ScrollLock at bits 2, 1, 0 (R71, decision D21). That the row of the
LED command (R71), performed as an operation of its own, does what `SET_LEDS` does is log entry 12. -/
def Obligations.CommandsWaitInCmdp : Prop :=
  ∀ (s : State) (b : Byte) (caps num scroll : Bool), s.cmdp = [] →
    ∀ led : Byte, led = BitVec.ofNat 8 ((if caps then 4 else 0) + (if num then 2 else 0) + (if scroll then 1 else 0)) →
    exec (.sendCommand b) s = .next { s with cmdp := [b] } ∧
    exec (.setLeds caps num scroll) s = .next { s with cmdp := [s.cfg.cmdSetLeds, led] } ∧
    exec (.ledCommand caps num scroll) s = .next { s with cmdp := [s.cfg.cmdSetLeds, led] }

/-- `STATUS` (R178, R20; the places of the bits are decision D20): the word has the ten flags at bits 0 to 9 and 0
above, and the reading changes nothing. -/
def Obligations.StatusReadsTheFlags : Prop :=
  ∀ s : State, s.cmdp = [] → ∃ w : Word16, exec .status s = .next { s with trace := .status w :: s.trace } ∧
    w.getLsbD 0 = s.flags.shift ∧ w.getLsbD 1 = s.flags.ctrl ∧ w.getLsbD 2 = s.flags.alt ∧
    w.getLsbD 3 = s.flags.ext ∧ w.getLsbD 4 = s.flags.brk ∧ w.getLsbD 5 = s.flags.caps ∧
    w.getLsbD 6 = s.flags.num ∧ w.getLsbD 7 = s.flags.scroll ∧ w.getLsbD 8 = s.flags.lockpend ∧
    w.getLsbD 9 = s.flags.bat ∧ ∀ k : Nat, 10 ≤ k → w.getLsbD k = false

/-- `INIT` (R180, R23, decisions D22, D23): as the reset input from every state, as the call when nothing is pending,
every piece of the block's state takes its reset value; nothing is put in `CMDP`. That the inputs still to come and
what has been shown stay is log entry 14. -/
def Obligations.InitRestoresTheResetValues : Prop :=
  ∀ s t : State,
    t = { State.reset with
      cfg := s.cfg
      events := s.events
      calls := s.calls
      turns := s.turns
      trace := .data .released :: .clk .released :: s.trace } →
    exec (.init .reset) s = .next t ∧ (s.cmdp = [] → exec (.init .call) s = .next t)

/-- The hold (R171, R75; decision D24): the block shows the foreground as held exactly while a byte is pending
(R7 (d)), and then every foreground operation but `SEND_START`, `TRANSLATE` and `DEQUEUE` waits with none of its effect
(that the call goes back to the foreground's operations is log entry 4); edges, the queue's accesses and reset are
enabled. The foreground is one thread (R182, R231): its turn passes over every operation but the two sends (log
entry 4). -/
def Obligations.ForegroundWaitsWhileBytesArePending : Prop :=
  ∀ (s : State) (b : Byte) (x y z : Bool), (s.foregroundHeld = true ↔ s.cmdp ≠ []) ∧ (s.cmdp ≠ [] →
    (∀ i : Instr, i.format = .sc ∨ i ∈ [Instr.consume, .poll, .status, .init .call, .sendCommand b, .setLeds x y z,
        .ledCommand x y z] →
      exec i s = .next { s with calls := encode s.cfg i :: s.calls } ∧ held i s = true) ∧
    (∀ i ∈ [Instr.edge x, .enqueue b, .dequeue, .translate b, .init .reset], held i s = false) ∧
    (∀ c i, decode s.cfg c = .ok i → agentOf i = .foreground → i ≠ .sendStart → (∀ b a, i ≠ .txFrame b a) →
      s.holds c = true))

/-- A keyboard that does not clock hangs the foreground (R224; the hold is decision D24): with a send in progress, bytes
pending behind it and no event to come, every operation of the foreground, `SEND_START` among them, waits for ever.
That every turn then passes with nothing but the turn used up is log entry 3, that the held calls stay in the list and
are passed over is log entry 4. -/
def Obligations.NoEdgesHangTheForeground : Prop :=
  ∀ (s : State) (k : Nat), s.legal = true → s.mode = .sending → s.cmdp ≠ [] → s.events = [] →
    (∀ c ∈ s.calls, ∃ i, decode s.cfg c = .ok i ∧ agentOf i = .foreground) →
    Host.Core.run Sys2Proof.core k s = .next { s with turns := s.turns.drop k }
end

