-- ==== Sys2Proof/Laws/State.lean ====
section
/-! SUPPORT. One lemma per field per update of the state, true by `rfl`: no proof unfolds a record update. The two
updates that branch (`enqueue`, and `endReceive`, which enqueues) have one lemma for all the fields they leave. -/

namespace Sys2Proof.Machine

variable (s : State)

@[simp] theorem State.observe_pos (o : Obs) : (s.observe o).pos = s.pos := rfl
@[simp] theorem State.observe_sr (o : Obs) : (s.observe o).sr = s.sr := rfl
@[simp] theorem State.observe_mode (o : Obs) : (s.observe o).mode = s.mode := rfl
@[simp] theorem State.observe_clkdrv (o : Obs) : (s.observe o).clkdrv = s.clkdrv := rfl
@[simp] theorem State.observe_datadrv (o : Obs) : (s.observe o).datadrv = s.datadrv := rfl
@[simp] theorem State.observe_q (o : Obs) : (s.observe o).q = s.q := rfl
@[simp] theorem State.observe_flags (o : Obs) : (s.observe o).flags = s.flags := rfl
@[simp] theorem State.observe_cmdp (o : Obs) : (s.observe o).cmdp = s.cmdp := rfl
@[simp] theorem State.observe_cfg (o : Obs) : (s.observe o).cfg = s.cfg := rfl
@[simp] theorem State.observe_events (o : Obs) : (s.observe o).events = s.events := rfl
@[simp] theorem State.observe_calls (o : Obs) : (s.observe o).calls = s.calls := rfl
@[simp] theorem State.observe_turns (o : Obs) : (s.observe o).turns = s.turns := rfl
@[simp] theorem State.observe_trace (o : Obs) : (s.observe o).trace = o :: s.trace := rfl

@[simp] theorem State.driveClk_pos (d : Drive) : (s.driveClk d).pos = s.pos := rfl
@[simp] theorem State.driveClk_sr (d : Drive) : (s.driveClk d).sr = s.sr := rfl
@[simp] theorem State.driveClk_mode (d : Drive) : (s.driveClk d).mode = s.mode := rfl
@[simp] theorem State.driveClk_clkdrv (d : Drive) : (s.driveClk d).clkdrv = d := rfl
@[simp] theorem State.driveClk_datadrv (d : Drive) : (s.driveClk d).datadrv = s.datadrv := rfl
@[simp] theorem State.driveClk_q (d : Drive) : (s.driveClk d).q = s.q := rfl
@[simp] theorem State.driveClk_flags (d : Drive) : (s.driveClk d).flags = s.flags := rfl
@[simp] theorem State.driveClk_cmdp (d : Drive) : (s.driveClk d).cmdp = s.cmdp := rfl
@[simp] theorem State.driveClk_cfg (d : Drive) : (s.driveClk d).cfg = s.cfg := rfl
@[simp] theorem State.driveClk_events (d : Drive) : (s.driveClk d).events = s.events := rfl
@[simp] theorem State.driveClk_calls (d : Drive) : (s.driveClk d).calls = s.calls := rfl
@[simp] theorem State.driveClk_turns (d : Drive) : (s.driveClk d).turns = s.turns := rfl
@[simp] theorem State.driveClk_trace (d : Drive) : (s.driveClk d).trace = .clk d :: s.trace := rfl

@[simp] theorem State.driveData_pos (d : Drive) : (s.driveData d).pos = s.pos := rfl
@[simp] theorem State.driveData_sr (d : Drive) : (s.driveData d).sr = s.sr := rfl
@[simp] theorem State.driveData_mode (d : Drive) : (s.driveData d).mode = s.mode := rfl
@[simp] theorem State.driveData_clkdrv (d : Drive) : (s.driveData d).clkdrv = s.clkdrv := rfl
@[simp] theorem State.driveData_datadrv (d : Drive) : (s.driveData d).datadrv = d := rfl
@[simp] theorem State.driveData_q (d : Drive) : (s.driveData d).q = s.q := rfl
@[simp] theorem State.driveData_flags (d : Drive) : (s.driveData d).flags = s.flags := rfl
@[simp] theorem State.driveData_cmdp (d : Drive) : (s.driveData d).cmdp = s.cmdp := rfl
@[simp] theorem State.driveData_cfg (d : Drive) : (s.driveData d).cfg = s.cfg := rfl
@[simp] theorem State.driveData_events (d : Drive) : (s.driveData d).events = s.events := rfl
@[simp] theorem State.driveData_calls (d : Drive) : (s.driveData d).calls = s.calls := rfl
@[simp] theorem State.driveData_turns (d : Drive) : (s.driveData d).turns = s.turns := rfl
@[simp] theorem State.driveData_trace (d : Drive) : (s.driveData d).trace = .data d :: s.trace := rfl

@[simp] theorem State.hold_pos (i : Instr) : (s.hold i).pos = s.pos := rfl
@[simp] theorem State.hold_sr (i : Instr) : (s.hold i).sr = s.sr := rfl
@[simp] theorem State.hold_mode (i : Instr) : (s.hold i).mode = s.mode := rfl
@[simp] theorem State.hold_clkdrv (i : Instr) : (s.hold i).clkdrv = s.clkdrv := rfl
@[simp] theorem State.hold_datadrv (i : Instr) : (s.hold i).datadrv = s.datadrv := rfl
@[simp] theorem State.hold_q (i : Instr) : (s.hold i).q = s.q := rfl
@[simp] theorem State.hold_flags (i : Instr) : (s.hold i).flags = s.flags := rfl
@[simp] theorem State.hold_cmdp (i : Instr) : (s.hold i).cmdp = s.cmdp := rfl
@[simp] theorem State.hold_cfg (i : Instr) : (s.hold i).cfg = s.cfg := rfl
@[simp] theorem State.hold_events (i : Instr) : (s.hold i).events = s.events := rfl
@[simp] theorem State.hold_calls (i : Instr) : (s.hold i).calls = encode s.cfg i :: s.calls := rfl
@[simp] theorem State.hold_turns (i : Instr) : (s.hold i).turns = s.turns := rfl
@[simp] theorem State.hold_trace (i : Instr) : (s.hold i).trace = s.trace := rfl

@[simp] theorem State.startReceive_pos : s.startReceive.pos = 1 := rfl
@[simp] theorem State.startReceive_sr : s.startReceive.sr = 0x00 := rfl
@[simp] theorem State.startReceive_mode : s.startReceive.mode = .receiving := rfl
@[simp] theorem State.startReceive_clkdrv : s.startReceive.clkdrv = s.clkdrv := rfl
@[simp] theorem State.startReceive_datadrv : s.startReceive.datadrv = s.datadrv := rfl
@[simp] theorem State.startReceive_q : s.startReceive.q = s.q := rfl
@[simp] theorem State.startReceive_flags : s.startReceive.flags = s.flags := rfl
@[simp] theorem State.startReceive_cmdp : s.startReceive.cmdp = s.cmdp := rfl
@[simp] theorem State.startReceive_cfg : s.startReceive.cfg = s.cfg := rfl
@[simp] theorem State.startReceive_events : s.startReceive.events = s.events := rfl
@[simp] theorem State.startReceive_calls : s.startReceive.calls = s.calls := rfl
@[simp] theorem State.startReceive_turns : s.startReceive.turns = s.turns := rfl
@[simp] theorem State.startReceive_trace : s.startReceive.trace = s.trace := rfl

@[simp] theorem State.receiveBit_pos (i : Fin 8) (d : Bool) : (s.receiveBit i d).pos = ⟨i.val + 2, by omega⟩ := rfl
@[simp] theorem State.receiveBit_sr (i : Fin 8) (d : Bool) : (s.receiveBit i d).sr = orBit s.sr i.val d := rfl
@[simp] theorem State.receiveBit_mode (i : Fin 8) (d : Bool) : (s.receiveBit i d).mode = s.mode := rfl
@[simp] theorem State.receiveBit_clkdrv (i : Fin 8) (d : Bool) : (s.receiveBit i d).clkdrv = s.clkdrv := rfl
@[simp] theorem State.receiveBit_datadrv (i : Fin 8) (d : Bool) : (s.receiveBit i d).datadrv = s.datadrv := rfl
@[simp] theorem State.receiveBit_q (i : Fin 8) (d : Bool) : (s.receiveBit i d).q = s.q := rfl
@[simp] theorem State.receiveBit_flags (i : Fin 8) (d : Bool) : (s.receiveBit i d).flags = s.flags := rfl
@[simp] theorem State.receiveBit_cmdp (i : Fin 8) (d : Bool) : (s.receiveBit i d).cmdp = s.cmdp := rfl
@[simp] theorem State.receiveBit_cfg (i : Fin 8) (d : Bool) : (s.receiveBit i d).cfg = s.cfg := rfl
@[simp] theorem State.receiveBit_events (i : Fin 8) (d : Bool) : (s.receiveBit i d).events = s.events := rfl
@[simp] theorem State.receiveBit_calls (i : Fin 8) (d : Bool) : (s.receiveBit i d).calls = s.calls := rfl
@[simp] theorem State.receiveBit_turns (i : Fin 8) (d : Bool) : (s.receiveBit i d).turns = s.turns := rfl
@[simp] theorem State.receiveBit_trace (i : Fin 8) (d : Bool) : (s.receiveBit i d).trace = s.trace := rfl

@[simp] theorem State.receiveParity_pos : s.receiveParity.pos = 10 := rfl
@[simp] theorem State.receiveParity_sr : s.receiveParity.sr = s.sr := rfl
@[simp] theorem State.receiveParity_mode : s.receiveParity.mode = s.mode := rfl
@[simp] theorem State.receiveParity_clkdrv : s.receiveParity.clkdrv = s.clkdrv := rfl
@[simp] theorem State.receiveParity_datadrv : s.receiveParity.datadrv = s.datadrv := rfl
@[simp] theorem State.receiveParity_q : s.receiveParity.q = s.q := rfl
@[simp] theorem State.receiveParity_flags : s.receiveParity.flags = s.flags := rfl
@[simp] theorem State.receiveParity_cmdp : s.receiveParity.cmdp = s.cmdp := rfl
@[simp] theorem State.receiveParity_cfg : s.receiveParity.cfg = s.cfg := rfl
@[simp] theorem State.receiveParity_events : s.receiveParity.events = s.events := rfl
@[simp] theorem State.receiveParity_calls : s.receiveParity.calls = s.calls := rfl
@[simp] theorem State.receiveParity_turns : s.receiveParity.turns = s.turns := rfl
@[simp] theorem State.receiveParity_trace : s.receiveParity.trace = s.trace := rfl

@[simp] theorem State.passStart_pos : s.passStart.pos = 1 := rfl
@[simp] theorem State.passStart_sr : s.passStart.sr = s.sr := rfl
@[simp] theorem State.passStart_mode : s.passStart.mode = s.mode := rfl
@[simp] theorem State.passStart_clkdrv : s.passStart.clkdrv = s.clkdrv := rfl
@[simp] theorem State.passStart_datadrv : s.passStart.datadrv = s.datadrv := rfl
@[simp] theorem State.passStart_q : s.passStart.q = s.q := rfl
@[simp] theorem State.passStart_flags : s.passStart.flags = s.flags := rfl
@[simp] theorem State.passStart_cmdp : s.passStart.cmdp = s.cmdp := rfl
@[simp] theorem State.passStart_cfg : s.passStart.cfg = s.cfg := rfl
@[simp] theorem State.passStart_events : s.passStart.events = s.events := rfl
@[simp] theorem State.passStart_calls : s.passStart.calls = s.calls := rfl
@[simp] theorem State.passStart_turns : s.passStart.turns = s.turns := rfl
@[simp] theorem State.passStart_trace : s.passStart.trace = s.trace := rfl

@[simp] theorem State.sendBit_pos (i : Fin 8) : (s.sendBit i).pos = ⟨i.val + 2, by omega⟩ := rfl
@[simp] theorem State.sendBit_sr (i : Fin 8) : (s.sendBit i).sr = s.sr := rfl
@[simp] theorem State.sendBit_mode (i : Fin 8) : (s.sendBit i).mode = s.mode := rfl
@[simp] theorem State.sendBit_clkdrv (i : Fin 8) : (s.sendBit i).clkdrv = s.clkdrv := rfl
@[simp] theorem State.sendBit_datadrv (i : Fin 8) : (s.sendBit i).datadrv = driveOf (s.sr.getLsbD i.val) := rfl
@[simp] theorem State.sendBit_q (i : Fin 8) : (s.sendBit i).q = s.q := rfl
@[simp] theorem State.sendBit_flags (i : Fin 8) : (s.sendBit i).flags = s.flags := rfl
@[simp] theorem State.sendBit_cmdp (i : Fin 8) : (s.sendBit i).cmdp = s.cmdp := rfl
@[simp] theorem State.sendBit_cfg (i : Fin 8) : (s.sendBit i).cfg = s.cfg := rfl
@[simp] theorem State.sendBit_events (i : Fin 8) : (s.sendBit i).events = s.events := rfl
@[simp] theorem State.sendBit_calls (i : Fin 8) : (s.sendBit i).calls = s.calls := rfl
@[simp] theorem State.sendBit_turns (i : Fin 8) : (s.sendBit i).turns = s.turns := rfl
@[simp] theorem State.sendBit_trace (i : Fin 8) : (s.sendBit i).trace =
    .data (driveOf (s.sr.getLsbD i.val)) :: s.trace := rfl

@[simp] theorem State.sendParity_pos : s.sendParity.pos = 10 := by cases s; rfl
@[simp] theorem State.sendParity_sr : s.sendParity.sr = s.sr := by cases s; rfl
@[simp] theorem State.sendParity_mode : s.sendParity.mode = s.mode := by cases s; rfl
@[simp] theorem State.sendParity_clkdrv : s.sendParity.clkdrv = s.clkdrv := by cases s; rfl
@[simp] theorem State.sendParity_datadrv : s.sendParity.datadrv = driveOf (parity s.sr) := by cases s; rfl
@[simp] theorem State.sendParity_q : s.sendParity.q = s.q := by cases s; rfl
@[simp] theorem State.sendParity_flags : s.sendParity.flags = s.flags := by cases s; rfl
@[simp] theorem State.sendParity_cmdp : s.sendParity.cmdp = s.cmdp := by cases s; rfl
@[simp] theorem State.sendParity_cfg : s.sendParity.cfg = s.cfg := by cases s; rfl
@[simp] theorem State.sendParity_events : s.sendParity.events = s.events := by cases s; rfl
@[simp] theorem State.sendParity_calls : s.sendParity.calls = s.calls := by cases s; rfl
@[simp] theorem State.sendParity_turns : s.sendParity.turns = s.turns := by cases s; rfl
@[simp] theorem State.sendParity_trace : s.sendParity.trace = .data (driveOf (parity s.sr)) :: s.trace := by cases s; rfl

@[simp] theorem State.sendStop_pos : s.sendStop.pos = 11 := rfl
@[simp] theorem State.sendStop_sr : s.sendStop.sr = s.sr := rfl
@[simp] theorem State.sendStop_mode : s.sendStop.mode = s.mode := rfl
@[simp] theorem State.sendStop_clkdrv : s.sendStop.clkdrv = s.clkdrv := rfl
@[simp] theorem State.sendStop_datadrv : s.sendStop.datadrv = .released := rfl
@[simp] theorem State.sendStop_q : s.sendStop.q = s.q := rfl
@[simp] theorem State.sendStop_flags : s.sendStop.flags = s.flags := rfl
@[simp] theorem State.sendStop_cmdp : s.sendStop.cmdp = s.cmdp := rfl
@[simp] theorem State.sendStop_cfg : s.sendStop.cfg = s.cfg := rfl
@[simp] theorem State.sendStop_events : s.sendStop.events = s.events := rfl
@[simp] theorem State.sendStop_calls : s.sendStop.calls = s.calls := rfl
@[simp] theorem State.sendStop_turns : s.sendStop.turns = s.turns := rfl
@[simp] theorem State.sendStop_trace : s.sendStop.trace = .data .released :: s.trace := rfl

@[simp] theorem State.endSend_pos : s.endSend.pos = 0 := rfl
@[simp] theorem State.endSend_sr : s.endSend.sr = s.sr := rfl
@[simp] theorem State.endSend_mode : s.endSend.mode = .idle := rfl
@[simp] theorem State.endSend_clkdrv : s.endSend.clkdrv = s.clkdrv := rfl
@[simp] theorem State.endSend_datadrv : s.endSend.datadrv = s.datadrv := rfl
@[simp] theorem State.endSend_q : s.endSend.q = s.q := rfl
@[simp] theorem State.endSend_flags : s.endSend.flags = s.flags := rfl
@[simp] theorem State.endSend_cmdp : s.endSend.cmdp = s.cmdp := rfl
@[simp] theorem State.endSend_cfg : s.endSend.cfg = s.cfg := rfl
@[simp] theorem State.endSend_events : s.endSend.events = s.events := rfl
@[simp] theorem State.endSend_calls : s.endSend.calls = s.calls := rfl
@[simp] theorem State.endSend_turns : s.endSend.turns = s.turns := rfl
@[simp] theorem State.endSend_trace : s.endSend.trace = s.trace := rfl

@[simp] theorem State.beginSend_pos (b : Byte) (rest : List Byte) : (s.beginSend b rest).pos = 1 := rfl
@[simp] theorem State.beginSend_sr (b : Byte) (rest : List Byte) : (s.beginSend b rest).sr = b := rfl
@[simp] theorem State.beginSend_mode (b : Byte) (rest : List Byte) : (s.beginSend b rest).mode = .sending := rfl
@[simp] theorem State.beginSend_clkdrv (b : Byte) (rest : List Byte) : (s.beginSend b rest).clkdrv = .released := rfl
@[simp] theorem State.beginSend_datadrv (b : Byte) (rest : List Byte) : (s.beginSend b rest).datadrv = .low := rfl
@[simp] theorem State.beginSend_q (b : Byte) (rest : List Byte) : (s.beginSend b rest).q = s.q := rfl
@[simp] theorem State.beginSend_flags (b : Byte) (rest : List Byte) : (s.beginSend b rest).flags = s.flags := rfl
@[simp] theorem State.beginSend_cmdp (b : Byte) (rest : List Byte) : (s.beginSend b rest).cmdp = rest := rfl
@[simp] theorem State.beginSend_cfg (b : Byte) (rest : List Byte) : (s.beginSend b rest).cfg = s.cfg := rfl
@[simp] theorem State.beginSend_events (b : Byte) (rest : List Byte) : (s.beginSend b rest).events = s.events := rfl
@[simp] theorem State.beginSend_calls (b : Byte) (rest : List Byte) : (s.beginSend b rest).calls = s.calls := rfl
@[simp] theorem State.beginSend_turns (b : Byte) (rest : List Byte) : (s.beginSend b rest).turns = s.turns := rfl
@[simp] theorem State.beginSend_trace (b : Byte) (rest : List Byte) : (s.beginSend b rest).trace =
    .clk .released :: .data .low :: .rts s.cfg.rtsHold :: .clk .low :: s.trace := rfl

@[simp] theorem State.putLeds_pos (c n l : Bool) : (s.putLeds c n l).pos = s.pos := rfl
@[simp] theorem State.putLeds_sr (c n l : Bool) : (s.putLeds c n l).sr = s.sr := rfl
@[simp] theorem State.putLeds_mode (c n l : Bool) : (s.putLeds c n l).mode = s.mode := rfl
@[simp] theorem State.putLeds_clkdrv (c n l : Bool) : (s.putLeds c n l).clkdrv = s.clkdrv := rfl
@[simp] theorem State.putLeds_datadrv (c n l : Bool) : (s.putLeds c n l).datadrv = s.datadrv := rfl
@[simp] theorem State.putLeds_q (c n l : Bool) : (s.putLeds c n l).q = s.q := rfl
@[simp] theorem State.putLeds_flags (c n l : Bool) : (s.putLeds c n l).flags = s.flags := rfl
@[simp] theorem State.putLeds_cmdp (c n l : Bool) : (s.putLeds c n l).cmdp = [s.cfg.cmdSetLeds, ledByte c n l] := rfl
@[simp] theorem State.putLeds_cfg (c n l : Bool) : (s.putLeds c n l).cfg = s.cfg := rfl
@[simp] theorem State.putLeds_events (c n l : Bool) : (s.putLeds c n l).events = s.events := rfl
@[simp] theorem State.putLeds_calls (c n l : Bool) : (s.putLeds c n l).calls = s.calls := rfl
@[simp] theorem State.putLeds_turns (c n l : Bool) : (s.putLeds c n l).turns = s.turns := rfl
@[simp] theorem State.putLeds_trace (c n l : Bool) : (s.putLeds c n l).trace = s.trace := rfl

@[simp] theorem State.initialise_pos : s.initialise.pos = 0 := rfl
@[simp] theorem State.initialise_sr : s.initialise.sr = 0x00 := rfl
@[simp] theorem State.initialise_mode : s.initialise.mode = .idle := rfl
@[simp] theorem State.initialise_clkdrv : s.initialise.clkdrv = .released := rfl
@[simp] theorem State.initialise_datadrv : s.initialise.datadrv = .released := rfl
@[simp] theorem State.initialise_q : s.initialise.q = [] := rfl
@[simp] theorem State.initialise_flags : s.initialise.flags = Flags.zero := rfl
@[simp] theorem State.initialise_cmdp : s.initialise.cmdp = [] := rfl
@[simp] theorem State.initialise_cfg : s.initialise.cfg = s.cfg := rfl
@[simp] theorem State.initialise_events : s.initialise.events = s.events := rfl
@[simp] theorem State.initialise_calls : s.initialise.calls = s.calls := rfl
@[simp] theorem State.initialise_turns : s.initialise.turns = s.turns := rfl
@[simp] theorem State.initialise_trace : s.initialise.trace = .data .released :: .clk .released :: s.trace := rfl

@[simp] theorem State.dequeue_pos : s.dequeue.2.pos = s.pos := rfl
@[simp] theorem State.dequeue_sr : s.dequeue.2.sr = s.sr := rfl
@[simp] theorem State.dequeue_mode : s.dequeue.2.mode = s.mode := rfl
@[simp] theorem State.dequeue_clkdrv : s.dequeue.2.clkdrv = s.clkdrv := rfl
@[simp] theorem State.dequeue_datadrv : s.dequeue.2.datadrv = s.datadrv := rfl
@[simp] theorem State.dequeue_q : s.dequeue.2.q = s.q.tail := rfl
@[simp] theorem State.dequeue_flags : s.dequeue.2.flags = s.flags := rfl
@[simp] theorem State.dequeue_cmdp : s.dequeue.2.cmdp = s.cmdp := rfl
@[simp] theorem State.dequeue_cfg : s.dequeue.2.cfg = s.cfg := rfl
@[simp] theorem State.dequeue_events : s.dequeue.2.events = s.events := rfl
@[simp] theorem State.dequeue_calls : s.dequeue.2.calls = s.calls := rfl
@[simp] theorem State.dequeue_turns : s.dequeue.2.turns = s.turns := rfl
@[simp] theorem State.dequeue_trace : s.dequeue.2.trace = s.trace := rfl

/-- `Enqueue` writes the queue and nothing else. -/
theorem State.enqueue_snd (b : Byte) :
    (s.enqueue b).2 = { s with q := if s.q.length < s.cfg.n then s.q ++ [b] else s.q } := by
  unfold State.enqueue; split <;> rfl

@[simp] theorem State.enqueue_q (b : Byte) :
    (s.enqueue b).2.q = if s.q.length < s.cfg.n then s.q ++ [b] else s.q := by rw [State.enqueue_snd]

@[simp] theorem State.enqueue_fst (b : Byte) : (s.enqueue b).1 = decide (s.q.length < s.cfg.n) := by
  unfold State.enqueue; split <;> simp_all

@[simp] theorem State.dequeue_fst : s.dequeue.1 = s.headByte := rfl

@[simp] theorem State.enqueue_pos (b : Byte) : (s.enqueue b).2.pos = s.pos := by rw [State.enqueue_snd]
@[simp] theorem State.enqueue_sr (b : Byte) : (s.enqueue b).2.sr = s.sr := by rw [State.enqueue_snd]
@[simp] theorem State.enqueue_mode (b : Byte) : (s.enqueue b).2.mode = s.mode := by rw [State.enqueue_snd]
@[simp] theorem State.enqueue_clkdrv (b : Byte) : (s.enqueue b).2.clkdrv = s.clkdrv := by rw [State.enqueue_snd]
@[simp] theorem State.enqueue_datadrv (b : Byte) : (s.enqueue b).2.datadrv = s.datadrv := by rw [State.enqueue_snd]
@[simp] theorem State.enqueue_flags (b : Byte) : (s.enqueue b).2.flags = s.flags := by rw [State.enqueue_snd]
@[simp] theorem State.enqueue_cmdp (b : Byte) : (s.enqueue b).2.cmdp = s.cmdp := by rw [State.enqueue_snd]
@[simp] theorem State.enqueue_cfg (b : Byte) : (s.enqueue b).2.cfg = s.cfg := by rw [State.enqueue_snd]
@[simp] theorem State.enqueue_events (b : Byte) : (s.enqueue b).2.events = s.events := by rw [State.enqueue_snd]
@[simp] theorem State.enqueue_calls (b : Byte) : (s.enqueue b).2.calls = s.calls := by rw [State.enqueue_snd]
@[simp] theorem State.enqueue_turns (b : Byte) : (s.enqueue b).2.turns = s.turns := by rw [State.enqueue_snd]
@[simp] theorem State.enqueue_trace (b : Byte) : (s.enqueue b).2.trace = s.trace := by rw [State.enqueue_snd]

/-- R94 as one record: the byte is appended if there is room, and the frame is over. -/
theorem State.endReceive_eq :
    s.endReceive =
      { s with q := if s.q.length < s.cfg.n then s.q ++ [s.sr] else s.q, pos := 0, mode := .idle } := by
  unfold State.endReceive; rw [State.enqueue_snd]

@[simp] theorem State.endReceive_pos : s.endReceive.pos = 0 := by rw [State.endReceive_eq]
@[simp] theorem State.endReceive_sr : s.endReceive.sr = s.sr := by rw [State.endReceive_eq]
@[simp] theorem State.endReceive_mode : s.endReceive.mode = .idle := by rw [State.endReceive_eq]
@[simp] theorem State.endReceive_clkdrv : s.endReceive.clkdrv = s.clkdrv := by rw [State.endReceive_eq]
@[simp] theorem State.endReceive_datadrv : s.endReceive.datadrv = s.datadrv := by rw [State.endReceive_eq]
@[simp] theorem State.endReceive_q : s.endReceive.q = if s.q.length < s.cfg.n then s.q ++ [s.sr] else s.q := by rw [State.endReceive_eq]
@[simp] theorem State.endReceive_flags : s.endReceive.flags = s.flags := by rw [State.endReceive_eq]
@[simp] theorem State.endReceive_cmdp : s.endReceive.cmdp = s.cmdp := by rw [State.endReceive_eq]
@[simp] theorem State.endReceive_cfg : s.endReceive.cfg = s.cfg := by rw [State.endReceive_eq]
@[simp] theorem State.endReceive_events : s.endReceive.events = s.events := by rw [State.endReceive_eq]
@[simp] theorem State.endReceive_calls : s.endReceive.calls = s.calls := by rw [State.endReceive_eq]
@[simp] theorem State.endReceive_turns : s.endReceive.turns = s.turns := by rw [State.endReceive_eq]
@[simp] theorem State.endReceive_trace : s.endReceive.trace = s.trace := by rw [State.endReceive_eq]

end Sys2Proof.Machine
end

