-- ==== Sys2Proof/Laws/Ops.lean ====
section
/-! SUPPORT. One lemma per shared operation that says once everything it can do; proofs cite these and do not unfold
the operation. -/

namespace Sys2Proof.Machine

variable {s t : State}

/-- The foreground is free exactly when `CMDP` is empty. -/
@[simp] theorem State.free_iff : s.free = true ↔ s.cmdp = [] := by simp [State.free]

/-- The block shows the foreground as held exactly while `CMDP` is not empty (R7 (d), R171). -/
@[simp] theorem State.foregroundHeld_iff : s.foregroundHeld = true ↔ s.cmdp ≠ [] := by simp [State.foregroundHeld, State.free]

/-- A guarded foreground operation goes on, or waits with nothing but its own call put back. -/
theorem State.whenFree_cases (i : Instr) (go : Result) :
    (s.cmdp = [] ∧ s.whenFree i go = go) ∨ (s.cmdp ≠ [] ∧ s.whenFree i go = .next (s.hold i)) := by
  unfold State.whenFree
  by_cases h : s.cmdp = [] <;> simp [h, State.free]

theorem State.whenFree_free (h : s.cmdp = []) (i : Instr) (go : Result) : s.whenFree i go = go := by
  simp [State.whenFree, State.free, h]

theorem State.whenFree_held (h : s.cmdp ≠ []) (i : Instr) (go : Result) :
    s.whenFree i go = .next (s.hold i) := by
  simp [State.whenFree, State.free, h]

/-- An edge row answers a next state only in its own pair, and then the response given. -/
theorem State.inPair_next (m : Mode) (p : Fin 12) (u : State) :
    s.inPair m p u = .next t ↔ s.mode = m ∧ s.pos = p ∧ t = u := by
  unfold State.inPair State.atKey
  by_cases h : s.mode = m ∧ s.pos = p
  · simp [h.1, h.2, eq_comm]
  · rw [if_neg (by simpa using h)]
    simp only [reduceCtorEq, false_iff]
    exact fun k => h ⟨k.1, k.2.1⟩

/-- Everything an edge can do (R91 to R104). -/
theorem State.takeEdge_cases {d : Bool} (h : s.takeEdge d = .next t) :
    (s.mode = .idle ∧ s.pos.val = 0 ∧ t = s.startReceive) ∨
    (s.mode = .receiving ∧ ∃ i : Fin 8, s.pos.val = i.val + 1 ∧ t = s.receiveBit i d) ∨
    (s.mode = .receiving ∧ s.pos.val = 9 ∧ t = s.receiveParity) ∨
    (s.mode = .receiving ∧ s.pos.val = 10 ∧ t = s.endReceive) ∨
    (s.mode = .sending ∧ s.pos.val = 0 ∧ t = s.passStart) ∨
    (s.mode = .sending ∧ ∃ i : Fin 8, s.pos.val = i.val + 1 ∧ t = s.sendBit i) ∨
    (s.mode = .sending ∧ s.pos.val = 9 ∧ t = s.sendParity) ∨
    (s.mode = .sending ∧ s.pos.val = 10 ∧ t = s.sendStop) ∨
    (s.mode = .sending ∧ s.pos.val = 11 ∧ t = s.endSend) := by
  unfold State.takeEdge at h
  split at h <;> simp only [Host.Outcome.next.injEq, reduceCtorEq] at h <;> subst h <;> simp_all
  all_goals first | exact ⟨0, rfl, rfl⟩ | exact ⟨1, rfl, rfl⟩ | exact ⟨2, rfl, rfl⟩ | exact ⟨3, rfl, rfl⟩
                  | exact ⟨4, rfl, rfl⟩ | exact ⟨5, rfl, rfl⟩ | exact ⟨6, rfl, rfl⟩ | exact ⟨7, rfl, rfl⟩

/-- An edge answers a next state exactly in the pairs of R73. -/
theorem State.takeEdge_total (d : Bool) (h : (edgeRow s.mode s.pos.val d).isSome = true) :
    ∃ t, s.takeEdge d = .next t := by
  unfold State.takeEdge
  unfold edgeRow at h
  split at h <;> simp_all

/-- What an edge leaves: the flags, `CMDP`, the clock latch, the parameters and the inputs still to come. -/
theorem State.takeEdge_frame {d : Bool} (h : s.takeEdge d = .next t) :
    t.flags = s.flags ∧ t.cmdp = s.cmdp ∧ t.clkdrv = s.clkdrv ∧ t.cfg = s.cfg ∧ t.events = s.events ∧
      t.calls = s.calls ∧ t.turns = s.turns := by
  rcases takeEdge_cases h with ⟨-, -, rfl⟩ | ⟨-, i, -, rfl⟩ | ⟨-, -, rfl⟩ | ⟨-, -, rfl⟩ | ⟨-, -, rfl⟩ |
    ⟨-, i, -, rfl⟩ | ⟨-, -, rfl⟩ | ⟨-, -, rfl⟩ | ⟨-, -, rfl⟩ <;> simp

/-- A run of edges is one edge and the rest. -/
theorem State.takeEdges_cons {d : Bool} {ds : List Bool} (h : s.takeEdges (d :: ds) = .next t) :
    ∃ u, s.takeEdge d = .next u ∧ u.takeEdges ds = .next t := by
  unfold State.takeEdges at h
  split at h
  · exact ⟨_, ‹_›, h⟩
  · cases h
  · cases h

theorem State.takeEdges_append (ds es : List Bool) :
    s.takeEdges (ds ++ es) =
      match s.takeEdges ds with
      | .next u => u.takeEdges es
      | .fault r => .fault r
      | .refused r => .refused r := by
  induction ds generalizing s with
  | nil => rfl
  | cons d ds ih =>
    simp only [List.cons_append, State.takeEdges]
    cases s.takeEdge d with
    | next u => exact ih
    | fault r => rfl
    | refused r => rfl

/-- The part of `CONSUME` after `TRANSLATE`: the flags, `CMDP` if an LED update is asked for, and nothing else. -/
theorem State.finishConsume_snd (o : Translation) :
    (s.finishConsume o).2 =
      { s with
        flags := o.flags
        cmdp := if o.ledreq then [s.cfg.cmdSetLeds, o.flags.leds] else s.cmdp } := by
  unfold State.finishConsume Flags.leds State.putLeds
  cases o.ledreq <;> rfl

theorem State.finishConsume_fst (o : Translation) :
    (s.finishConsume o).1 = match o.char with | some c => .char c | none => .nochar := rfl

/-- One `CONSUME`: the head of the queue is removed; `0x00` is taken for "empty", any other byte is translated. -/
theorem State.consumeOne_eq :
    s.consumeOne =
      if s.headByte = 0x00 then (.empty, s.dequeue.2)
      else s.dequeue.2.finishConsume (translateByte s.cfg s.headByte s.flags) := rfl

/-- A scancode row answers a next state when the foreground is free and the row is selected, with the effect of its
translation; or it waits. -/
theorem State.runScRow_next (i : Instr) (sel : Bool) (o : Translation) :
    s.runScRow i sel o = .next t ↔
      (s.cmdp = [] ∧ sel = true ∧ t = (s.finishConsume o).2.observe (.consume (s.finishConsume o).1)) ∨
      (s.cmdp ≠ [] ∧ t = s.hold i) := by
  unfold State.runScRow
  rcases State.whenFree_cases (s := s) i _ with ⟨h, e⟩ | ⟨h, e⟩ <;> rw [e]
  · cases sel <;> simp [h, eq_comm]
  · simp [h, eq_comm]

/-- A selected row of a free foreground has the effect of its translation. -/
theorem State.runScRow_selected (h : s.cmdp = []) (i : Instr) {sel : Bool} (hs : sel = true) (o : Translation) :
    s.runScRow i sel o = .next ((s.finishConsume o).2.observe (.consume (s.finishConsume o).1)) :=
  (State.runScRow_next i sel o).2 (.inl ⟨h, hs, rfl⟩)

/-- A row that is not selected is refused. -/
theorem State.runScRow_other (h : s.cmdp = []) (i : Instr) {sel : Bool} (hs : sel = false) (o : Translation) :
    s.runScRow i sel o = .refused .notSelected := by
  subst hs
  exact State.whenFree_free h i _

/-- While bytes are pending a row waits. -/
theorem State.runScRow_held (h : s.cmdp ≠ []) (i : Instr) (sel : Bool) (o : Translation) :
    s.runScRow i sel o = .next (s.hold i) :=
  State.whenFree_held h i _

/-- A translation with no character and no LED request changes the flags only. -/
theorem State.finishConsume_silent (f : Flags) : s.finishConsume f.silent = (.nochar, { s with flags := f }) := rfl

/-- What the foreground passes over is held; what it takes is not, and the rest keeps its order. -/
theorem State.firstEnabled_some {l : List Code} {c : Code} {rest : List Code}
    (h : s.firstEnabled l = some (c, rest)) :
    ∃ held after, l = held ++ c :: after ∧ rest = held ++ after ∧ (∀ x ∈ held, s.holds x = true) ∧
      s.holds c = false := by
  induction l generalizing c rest with
  | nil => cases h
  | cons x xs ih =>
    unfold State.firstEnabled at h
    by_cases hx : s.holds x = true
    · rw [if_pos hx] at h
      split at h
      · cases h
      · rename_i d others hd
        cases h
        obtain ⟨held, after, rfl, rfl, hall, hc⟩ := ih hd
        exact ⟨x :: held, after, rfl, rfl, by simpa [hx] using hall, hc⟩
    · rw [if_neg hx] at h
      cases h
      exact ⟨[], xs, rfl, rfl, by simp, by simpa using hx⟩

/-- Nothing is taken exactly when everything is held. -/
theorem State.firstEnabled_none {l : List Code} : s.firstEnabled l = none ↔ ∀ x ∈ l, s.holds x = true := by
  induction l with
  | nil => simp [State.firstEnabled]
  | cons x xs ih =>
    unfold State.firstEnabled
    by_cases hx : s.holds x = true
    · rw [if_pos hx]
      cases hr : s.firstEnabled xs with
      | none => simpa [hx, hr] using ih
      | some p => simpa [hx, hr] using ih
    · simp [hx]

/-- Whether an operation is held depends on `MODE` and `CMDP` alone (R75). -/
theorem held_congr (s t : State) (hm : s.mode = t.mode) (hc : s.cmdp = t.cmdp) (i : Instr) : held i s = held i t := by
  unfold held State.free
  rw [hm, hc]

/-- Whether an operation waits depends on `MODE` and `CMDP` alone. -/
theorem waits_congr (s t : State) (hm : s.mode = t.mode) (hc : s.cmdp = t.cmdp) (i : Instr) :
    waits i s = waits i t := by
  unfold waits State.free
  rw [held_congr s t hm hc, hc]

/-- While bytes are pending, every operation of the foreground but the two sends waits: one thread makes one call at a
time (R171, R182). -/
theorem waits_of_pending (h : s.cmdp ≠ []) {i : Instr} (ha : agentOf i = .foreground) (hs : i ≠ .sendStart)
    (hf : ∀ b a, i ≠ .txFrame b a) : waits i s = true := by
  have hp : s.free = false := by simpa [State.free] using h
  unfold waits held
  cases i <;> simp_all [agentOf]
  all_goals rename_i k; cases k <;> simp_all

theorem State.holds_congr (s t : State) (hm : s.mode = t.mode) (hc : s.cmdp = t.cmdp) (hg : s.cfg = t.cfg) (c : Code) :
    s.holds c = t.holds c := by
  unfold State.holds
  rw [hg]
  split
  · exact waits_congr s t hm hc _
  · rfl

theorem State.firstEnabled_congr (s t : State) (hm : s.mode = t.mode) (hc : s.cmdp = t.cmdp) (hg : s.cfg = t.cfg) (l : List Code) :
    s.firstEnabled l = t.firstEnabled l := by
  induction l with
  | nil => rfl
  | cons x xs ih => simp only [State.firstEnabled, State.holds_congr s t hm hc hg, ih]

/-- The operation after a run of held ones is the one taken, and the held ones stay before the rest. -/
theorem State.firstEnabled_append {before : List Code} {c : Code} (hb : ∀ x ∈ before, s.holds x = true)
    (hc : s.holds c = false) (after : List Code) :
    s.firstEnabled (before ++ c :: after) = some (c, before ++ after) := by
  induction before with
  | nil => simp [State.firstEnabled, hc]
  | cons x xs ih =>
    rw [List.cons_append, State.firstEnabled, if_pos (hb x List.mem_cons_self),
      ih (fun y hy => hb y (List.mem_cons_of_mem _ hy))]
    rfl

/-- A state whose (MODE, POS) pair, wires, queue and `CMDP` are those of a legal state is legal: the inputs still to come
and the shown results do not count. -/
theorem State.legal_congr (s t : State) (hm : s.mode = t.mode) (hp : s.pos = t.pos) (hk : s.clkdrv = t.clkdrv)
    (hd : s.datadrv = t.datadrv) (hq : s.q = t.q) (hc : s.cmdp = t.cmdp) (hg : s.cfg = t.cfg) :
    s.legal = t.legal := by
  unfold State.legal
  rw [hm, hp, hk, hd, hq, hc, hg]

/-- Selecting an operation touches none of the inputs and none of the parameters. -/
theorem State.selecting_frame (s : State) (i : Instr) :
    (s.selecting i).cfg = s.cfg ∧ (s.selecting i).events = s.events ∧ (s.selecting i).calls = s.calls ∧
      (s.selecting i).turns = s.turns := by
  unfold State.selecting
  split <;> exact ⟨rfl, rfl, rfl, rfl⟩

/-- The code of an operation that is scheduled itself is placed as its agent's next input. -/
theorem State.load_own {c : Code} {i : Instr} (hd : decode s.cfg c = .ok i) (he : enclosing i = none) :
    s.load c = (s.selecting i).place (agentOf i) c := by
  unfold State.load
  simp only [hd, he]

/-- The code of a part places the operation that performs it. -/
theorem State.load_part {c : Code} {i j : Instr} (hd : decode s.cfg c = .ok i) (he : enclosing i = some j) :
    s.load c = (s.selecting i).place (agentOf j) (encode s.cfg j) := by
  unfold State.load
  simp only [hd, he]

/-- The parts: `ENQUEUE`, `DEQUEUE`, `TRANSLATE`, the scancode rows and `TX.START`, with what performs each. -/
theorem enclosing_cases {i j : Instr} (h : enclosing i = some j) :
    ((∃ b, i = .enqueue b) ∧ j = .edge false) ∨
    ((i = .dequeue ∨ (∃ sc, i = .translate sc) ∨ i.format = .sc) ∧ j = .consume) ∨
    ((∃ d, i = .txStart d) ∧ j = .sendStart) := by
  cases i <;> cases h <;> simp [Instr.format]

/-- What performs a part is scheduled itself. -/
theorem enclosing_scheduled {i j : Instr} (h : enclosing i = some j) : enclosing j = none := by
  rcases enclosing_cases h with ⟨-, rfl⟩ | ⟨-, rfl⟩ | ⟨-, rfl⟩ <;> rfl

/-- The code of what performs a part decodes under every parameter record. -/
theorem decode_enclosing {i j : Instr} (h : enclosing i = some j) (cfg cfg' : Config) :
    decode cfg (encode cfg' j) = .ok j := by
  rcases enclosing_cases h with ⟨-, rfl⟩ | ⟨-, rfl⟩ | ⟨-, rfl⟩
  · change decodeOp (opBits 0 (bitOperand false)) = _
    decide
  · change decodeOp (opBits 5 0) = _
    decide
  · change decodeOp (opBits 1 0) = _
    decide

/-- Fetching takes one code out of the agent's list and changes nothing else. -/
theorem State.fetch_frame {a : Agent} {c : Code} (h : s.fetch a = some (c, t)) :
    (∃ rest, s.events = c :: rest ∧ t = { s with events := rest }) ∨
    (∃ rest, s.firstEnabled s.calls = some (c, rest) ∧ t = { s with calls := rest }) := by
  cases a with
  | line =>
    unfold State.fetch at h
    cases he : s.events with
    | nil => simp [he] at h
    | cons x xs =>
      simp only [he, Option.some.injEq, Prod.mk.injEq] at h
      exact .inl ⟨xs, by rw [h.1], h.2.symm⟩
  | foreground =>
    unfold State.fetch at h
    cases he : s.firstEnabled s.calls with
    | none => simp [he] at h
    | some p =>
      simp only [he, Option.some.injEq, Prod.mk.injEq] at h
      exact .inr ⟨p.2, by rw [← h.1], h.2.symm⟩

end Sys2Proof.Machine
end

