-- ==== Sys2Proof/Laws/Exec.lean ====
section
/-! SUPPORT. Everything an operation can do, said once (`exec_cases`): a proof about all operations goes through the
ten cases of this lemma and unfolds no meaning. -/

namespace Sys2Proof.Machine

variable {s t : State}

/-- An edge row that answers a next state is the edge's own response. -/
theorem State.inPair_takeEdge {m : Mode} {p : Fin 12} {u : State} (d : Bool) (h : s.inPair m p u = .next t)
    (hu : s.mode = m → s.pos = p → s.takeEdge d = .next u) : s.takeEdge d = .next t := by
  obtain ⟨hm, hp, rfl⟩ := (State.inPair_next m p u).1 h
  exact hu hm hp

/-- An edge row that answers a next state does what an edge does. -/
theorem exec_edgeRow {i : Instr} (hk : i.edgeKey.isSome = true) (h : exec i s = .next t) :
    ∃ d, s.takeEdge d = .next t := by
  cases i
  case rxStart d => exact ⟨d, State.inPair_takeEdge d h (fun hm hp => by simp only [State.takeEdge, hm, hp]; rfl)⟩
  case rxData1 d => exact ⟨d, State.inPair_takeEdge d h (fun hm hp => by simp only [State.takeEdge, hm, hp]; rfl)⟩
  case rxData2 d => exact ⟨d, State.inPair_takeEdge d h (fun hm hp => by simp only [State.takeEdge, hm, hp]; rfl)⟩
  case rxData3 d => exact ⟨d, State.inPair_takeEdge d h (fun hm hp => by simp only [State.takeEdge, hm, hp]; rfl)⟩
  case rxData4 d => exact ⟨d, State.inPair_takeEdge d h (fun hm hp => by simp only [State.takeEdge, hm, hp]; rfl)⟩
  case rxData5 d => exact ⟨d, State.inPair_takeEdge d h (fun hm hp => by simp only [State.takeEdge, hm, hp]; rfl)⟩
  case rxData6 d => exact ⟨d, State.inPair_takeEdge d h (fun hm hp => by simp only [State.takeEdge, hm, hp]; rfl)⟩
  case rxData7 d => exact ⟨d, State.inPair_takeEdge d h (fun hm hp => by simp only [State.takeEdge, hm, hp]; rfl)⟩
  case rxData8 d => exact ⟨d, State.inPair_takeEdge d h (fun hm hp => by simp only [State.takeEdge, hm, hp]; rfl)⟩
  case rxParity d => exact ⟨d, State.inPair_takeEdge d h (fun hm hp => by simp only [State.takeEdge, hm, hp]; rfl)⟩
  case rxStop d => exact ⟨d, State.inPair_takeEdge d h (fun hm hp => by simp only [State.takeEdge, hm, hp]; rfl)⟩
  case txStart d => exact ⟨d, State.inPair_takeEdge d h (fun hm hp => by simp only [State.takeEdge, hm, hp]; rfl)⟩
  case txData1 d => exact ⟨d, State.inPair_takeEdge d h (fun hm hp => by simp only [State.takeEdge, hm, hp]; rfl)⟩
  case txData2 d => exact ⟨d, State.inPair_takeEdge d h (fun hm hp => by simp only [State.takeEdge, hm, hp]; rfl)⟩
  case txData3 d => exact ⟨d, State.inPair_takeEdge d h (fun hm hp => by simp only [State.takeEdge, hm, hp]; rfl)⟩
  case txData4 d => exact ⟨d, State.inPair_takeEdge d h (fun hm hp => by simp only [State.takeEdge, hm, hp]; rfl)⟩
  case txData5 d => exact ⟨d, State.inPair_takeEdge d h (fun hm hp => by simp only [State.takeEdge, hm, hp]; rfl)⟩
  case txData6 d => exact ⟨d, State.inPair_takeEdge d h (fun hm hp => by simp only [State.takeEdge, hm, hp]; rfl)⟩
  case txData7 d => exact ⟨d, State.inPair_takeEdge d h (fun hm hp => by simp only [State.takeEdge, hm, hp]; rfl)⟩
  case txData8 d => exact ⟨d, State.inPair_takeEdge d h (fun hm hp => by simp only [State.takeEdge, hm, hp]; rfl)⟩
  case txParity d => exact ⟨d, State.inPair_takeEdge d h (fun hm hp => by simp only [State.takeEdge, hm, hp]; rfl)⟩
  case txStop d => exact ⟨d, State.inPair_takeEdge d h (fun hm hp => by simp only [State.takeEdge, hm, hp]; rfl)⟩
  case txAck d => exact ⟨d, State.inPair_takeEdge d h (fun hm hp => by simp only [State.takeEdge, hm, hp]; rfl)⟩
  all_goals cases hk

/-- A scancode row that answers a next state waits, or shows "empty", or has the effect of a translation that never
clears the self-test flag. -/
theorem exec_scRow {i : Instr} (hf : i.format = .sc) (h : exec i s = .next t) :
    (s.cmdp ≠ [] ∧ t = s.hold i) ∨
    (s.cmdp = [] ∧ t = s.observe (.consume .empty)) ∨
    (s.cmdp = [] ∧ ∃ o : Translation, (s.flags.bat = true → o.flags.bat = true) ∧
      t = (s.finishConsume o).2.observe (.consume (s.finishConsume o).1)) := by
  have row : ∀ (sel : Bool) (o : Translation), (s.flags.bat = true → o.flags.bat = true) →
      s.runScRow i sel o = .next t →
      (s.cmdp ≠ [] ∧ t = s.hold i) ∨ (s.cmdp = [] ∧ t = s.observe (.consume .empty)) ∨
      (s.cmdp = [] ∧ ∃ o : Translation, (s.flags.bat = true → o.flags.bat = true) ∧
        t = (s.finishConsume o).2.observe (.consume (s.finishConsume o).1)) := fun sel o ho hr => by
    rcases (State.runScRow_next i sel o).1 hr with ⟨hc, -, rfl⟩ | ⟨hc, rfl⟩
    · exact .inr (.inr ⟨hc, o, ho, rfl⟩)
    · exact .inl ⟨hc, rfl⟩
  cases i <;> cases hf
  case scEmpty =>
    change s.whenFree .scEmpty _ = _ at h
    rcases State.whenFree_cases (s := s) .scEmpty (.next (s.observe (.consume .empty))) with ⟨hc, e⟩ | ⟨hc, e⟩
    · rw [e] at h; cases h; exact .inr (.inl ⟨hc, rfl⟩)
    · rw [e] at h; cases h; exact .inl ⟨hc, rfl⟩
  case batOk => exact row _ _ (fun _ => rfl) h
  all_goals exact row _ _ id h

/-- Everything an operation can do. -/
theorem exec_cases {i : Instr} (h : exec i s = .next t) :
    -- an edge, or an edge row in its own pair
    (∃ d, (i.edgeKey.isSome = true ∨ i = .edge d) ∧ s.takeEdge d = .next t) ∨
    -- a receive frame
    (∃ a b c d, i = .rxFrame a b c d ∧ s.takeEdges (a :: (wireBits b ++ [c, d])) = .next t) ∨
    -- a held operation
    (held i s = true ∧ t = s.hold i) ∨
    -- a send starts, alone or with its frame
    (∃ b rest, s.cmdp = b :: rest ∧ s.mode = .idle ∧ ((i = .sendStart ∧ t = s.beginSend b rest) ∨
      ∃ ack, i = .txFrame b ack ∧ s.sendFrame b rest ack = .next t)) ∨
    -- a scancode row
    (i.format = .sc ∧ s.cmdp = [] ∧ (t = s.observe (.consume .empty) ∨
      ∃ o : Translation, (s.flags.bat = true → o.flags.bat = true) ∧
        t = (s.finishConsume o).2.observe (.consume (s.finishConsume o).1))) ∨
    -- the queue's two accesses
    (∃ b, i = .enqueue b ∧ t = (s.enqueue b).2.observe (.enqueue (s.enqueue b).1)) ∨
    (i = .dequeue ∧ t = s.dequeue.2.observe (.dequeue s.dequeue.1)) ∨
    -- the translator
    (∃ sc, i = .translate sc ∧ t = ({ s with flags := (translateByte s.cfg sc s.flags).flags } : State).observe
      (.translate (translateByte s.cfg sc s.flags).char (translateByte s.cfg sc s.flags).ledreq)) ∨
    (s.cmdp = [] ∧ ((i = .consume ∧ t = s.consumeOne.2.observe (.consume s.consumeOne.1)) ∨
      (i = .poll ∧ ((∃ r, t = s.consumeOne.2.observe (.poll r)) ∨ t = s.consumeOne.2.hold .poll)))) ∨
    -- the host's commands, its status, and `INIT`
    (s.cmdp = [] ∧ ((∃ b, i = .sendCommand b ∧ t = { s with cmdp := [b] }) ∨
      (∃ c n l, (i = .setLeds c n l ∨ i = .ledCommand c n l) ∧ t = s.putLeds c n l) ∨
      (i = .status ∧ t = s.observe (.status s.flags.word)))) ∨
    (∃ k, i = .init k ∧ (k = .reset ∨ s.cmdp = []) ∧ t = s.initialise) := by
  have free : ∀ (j : Instr) (go : Result), s.whenFree j go = .next t →
      (s.cmdp = [] ∧ go = .next t) ∨ (s.free = false ∧ t = s.hold j) := fun j go e => by
    rcases State.whenFree_cases (s := s) j go with ⟨hc, e'⟩ | ⟨hc, e'⟩ <;> rw [e'] at e
    · exact .inl ⟨hc, e⟩
    · exact .inr ⟨by simpa [State.free] using hc, (Host.Outcome.next.inj e).symm⟩
  by_cases hk : i.edgeKey.isSome = true
  · obtain ⟨d, hd⟩ := exec_edgeRow hk h
    exact .inl ⟨d, .inl hk, hd⟩
  by_cases hs : i.format = .sc
  · rcases exec_scRow hs h with ⟨hc, rfl⟩ | ⟨hc, ht⟩ | ⟨hc, o, ho, ht⟩
    · have : s.free = false := by simpa [State.free] using hc
      refine .inr (.inr (.inl ⟨?_, rfl⟩))
      cases i <;> cases hs <;> simp [held, this]
    · exact .inr (.inr (.inr (.inr (.inl ⟨hs, hc, .inl ht⟩))))
    · exact .inr (.inr (.inr (.inr (.inl ⟨hs, hc, .inr ⟨o, ho, ht⟩⟩))))
  cases i <;> first | exact absurd rfl hk | exact absurd rfl hs | skip
  case rxFrame a b c d => exact .inr (.inl ⟨a, b, c, d, rfl, h⟩)
  case edge d => exact .inl ⟨d, .inr rfl, h⟩
  case txFrame b ack =>
    change execTxFrame b ack s = _ at h
    unfold execTxFrame at h
    split at h
    · cases h
      exact .inr (.inr (.inl ⟨by simp [held, State.free, *], rfl⟩))
    · rename_i c rest hc
      split at h
      · split at h
        · subst_vars
          exact .inr (.inr (.inr (.inl ⟨_, _, hc, ‹_›, .inr ⟨ack, rfl, h⟩⟩)))
        · cases h
      · cases h
        exact .inr (.inr (.inl ⟨by simp [held, *], rfl⟩))
  case sendStart =>
    change execSendStart s = _ at h
    unfold execSendStart at h
    split at h
    · cases h
      exact .inr (.inr (.inl ⟨by simp [held, State.free, *], rfl⟩))
    · rename_i c rest hc
      split at h <;> cases h
      · exact .inr (.inr (.inr (.inl ⟨_, _, hc, ‹_›, .inl ⟨rfl, rfl⟩⟩)))
      · exact .inr (.inr (.inl ⟨by simp [held, *], rfl⟩))
  case enqueue b => cases h; exact .inr (.inr (.inr (.inr (.inr (.inl ⟨b, rfl, rfl⟩)))))
  case dequeue => cases h; exact .inr (.inr (.inr (.inr (.inr (.inr (.inl ⟨rfl, rfl⟩))))))
  case translate sc => cases h; exact .inr (.inr (.inr (.inr (.inr (.inr (.inr (.inl ⟨sc, rfl, rfl⟩)))))))
  case consume =>
    rcases free _ _ h with ⟨hc, e⟩ | ⟨hc, e⟩
    · cases e
      exact .inr (.inr (.inr (.inr (.inr (.inr (.inr (.inr (.inl ⟨hc, .inl ⟨rfl, rfl⟩⟩))))))))
    · exact .inr (.inr (.inl ⟨by simp [held, hc], e⟩))
  case poll =>
    rcases free _ _ h with ⟨hc, e⟩ | ⟨hc, e⟩
    · refine .inr (.inr (.inr (.inr (.inr (.inr (.inr (.inr (.inl ⟨hc, .inr ⟨rfl, ?_⟩⟩))))))))
      generalize s.consumeOne = p at e
      obtain ⟨r, u⟩ := p
      cases r <;> cases e
      · exact .inl ⟨_, rfl⟩
      · exact .inr rfl
      · exact .inl ⟨_, rfl⟩
    · exact .inr (.inr (.inl ⟨by simp [held, hc], e⟩))
  case ledCommand c n l =>
    rcases free _ _ h with ⟨hc, e⟩ | ⟨hc, e⟩
    · cases e
      exact .inr (.inr (.inr (.inr (.inr (.inr (.inr (.inr (.inr (.inl
        ⟨hc, .inr (.inl ⟨c, n, l, .inr rfl, rfl⟩)⟩)))))))))
    · exact .inr (.inr (.inl ⟨by simp [held, hc], e⟩))
  case setLeds c n l =>
    rcases free _ _ h with ⟨hc, e⟩ | ⟨hc, e⟩
    · cases e
      exact .inr (.inr (.inr (.inr (.inr (.inr (.inr (.inr (.inr (.inl
        ⟨hc, .inr (.inl ⟨c, n, l, .inl rfl, rfl⟩)⟩)))))))))
    · exact .inr (.inr (.inl ⟨by simp [held, hc], e⟩))
  case sendCommand b =>
    rcases free _ _ h with ⟨hc, e⟩ | ⟨hc, e⟩
    · cases e
      exact .inr (.inr (.inr (.inr (.inr (.inr (.inr (.inr (.inr (.inl ⟨hc, .inl ⟨b, rfl, rfl⟩⟩)))))))))
    · exact .inr (.inr (.inl ⟨by simp [held, hc], e⟩))
  case status =>
    rcases free _ _ h with ⟨hc, e⟩ | ⟨hc, e⟩
    · cases e
      exact .inr (.inr (.inr (.inr (.inr (.inr (.inr (.inr (.inr (.inl ⟨hc, .inr (.inr ⟨rfl, rfl⟩)⟩)))))))))
    · exact .inr (.inr (.inl ⟨by simp [held, hc], e⟩))
  case init k =>
    cases k with
    | reset => cases h; exact .inr (.inr (.inr (.inr (.inr (.inr (.inr (.inr (.inr (.inr ⟨_, rfl, .inl rfl, rfl⟩)))))))))
    | call =>
      rcases free _ _ h with ⟨hc, e⟩ | ⟨hc, e⟩
      · cases e
        exact .inr (.inr (.inr (.inr (.inr (.inr (.inr (.inr (.inr (.inr ⟨_, rfl, .inr hc, rfl⟩)))))))))
      · exact .inr (.inr (.inl ⟨by simp [held, hc], e⟩))

end Sys2Proof.Machine
end

