-- ==== Sys2Proof/Laws/Run.lean ====
section
/-! SUPPORT. Runs of the machine through the host's interface: one step and the rest; and the states a
run may start from; and everything a step can do. -/

namespace Sys2Proof.Machine

/-- A run whose first step answers a next state goes on from it. -/
theorem run_succ {s t : State} (h : step s = .next t) (k : Nat) :
    Host.Core.run Sys2Proof.core (k + 1) s = Host.Core.run Sys2Proof.core k t := by
  have general : ∀ (M : Host.Core) (a b : M.State), M.step a = .next b → M.run (k + 1) a = M.run k b := by
    intro M a b hab
    unfold Host.Core.run
    simp only [hab]
    cases k <;> rfl
  exact general Sys2Proof.core s t h

/-- Everything a step can do: nothing with no turn scheduled; pass a turn of an agent with nothing it can do; or perform
the line's first event, or the foreground's first call that does not wait, which is that agent's own operation and no
part of another. -/
theorem step_cases {s t : State} (h : step s = .next t) :
    s.legal = true ∧
      ((s.turns = [] ∧ t = s) ∨
      (∃ a rest, s.turns = a :: rest ∧ t = { s with turns := rest }) ∨
      (∃ rest c after i, s.turns = .line :: rest ∧ s.events = c :: after ∧ decode s.cfg c = .ok i ∧
        agentOf i = .line ∧ enclosing i = none ∧ exec i { s with turns := rest, events := after } = .next t) ∨
      (∃ rest c others i, s.turns = .foreground :: rest ∧ s.firstEnabled s.calls = some (c, others) ∧
        decode s.cfg c = .ok i ∧ agentOf i = .foreground ∧ enclosing i = none ∧
        exec i { s with turns := rest, calls := others } = .next t)) := by
  have run : ∀ {a : Agent} {c : Code} {u : State}, runCode a c u = .next t →
      ∃ i, decode u.cfg c = .ok i ∧ agentOf i = a ∧ enclosing i = none ∧ exec i u = .next t := by
    intro a c u hu
    unfold runCode at hu
    split at hu
    · split at hu
      · split at hu
        · exact ⟨_, ‹_›, ‹_›, ‹_›, hu⟩
        · cases hu
      · cases hu
    · cases hu
  unfold step at h
  split at h
  · refine ⟨‹_›, ?_⟩
    cases ht : s.turns with
    | nil =>
      rw [ht] at h
      cases h
      exact .inl ⟨rfl, rfl⟩
    | cons a rest =>
      rw [ht] at h
      unfold runTurn State.fetch at h
      cases a with
      | line =>
        cases he : s.events with
        | nil =>
          simp only [he, Host.Outcome.next.injEq] at h
          exact .inr (.inl ⟨_, rest, rfl, h.symm⟩)
        | cons c after =>
          simp only [he] at h
          obtain ⟨i, hd, ha, hp, hx⟩ := run h
          exact .inr (.inr (.inl ⟨rest, c, after, i, rfl, rfl, hd, ha, hp, hx⟩))
      | foreground =>
        have hf : State.firstEnabled { s with turns := rest } s.calls = s.firstEnabled s.calls :=
          State.firstEnabled_congr { s with turns := rest } s rfl rfl rfl _
        cases he : s.firstEnabled s.calls with
        | none =>
          simp only [hf, he, Host.Outcome.next.injEq] at h
          exact .inr (.inl ⟨_, rest, rfl, h.symm⟩)
        | some p =>
          simp only [hf, he] at h
          obtain ⟨i, hd, ha, hp, hx⟩ := run h
          exact .inr (.inr (.inr ⟨rest, p.1, p.2, i, rfl, rfl, hd, ha, hp, hx⟩))
  · cases h

/-- A state that meets the invariant is a start state the block accepts. -/
theorem State.Inv.legal {s : State} (h : s.Inv) : s.legal = true := by
  unfold State.legal
  cases hm : s.mode with
  | idle => simp [Fin.ext_iff, h.idle hm, h.clk, h.queue, h.pending]
  | receiving => simp [h.receiving hm, h.clk, h.queue, h.pending]
  | sending => simp [h.sending hm, h.clk, h.queue, h.pending]

end Sys2Proof.Machine
end

