-- ==== Sys2Proof/Laws/Tables.lean ====
section
/-! SUPPORT. The tables, the block's read-only memory: the lookup answers the listed character, the default tables
are in canonical form, and the parameters that `State.reset` carries are ones the spec allows. No operation writes a
table, so nothing has to keep the form; that no step writes the parameters is a statement for the provers. -/

namespace Sys2Proof

theorem Rom.read_nil (sc : Byte) : Rom.read [] sc = none := rfl

theorem Rom.read_cons (cell : Host.Cell) (t : Rom) (sc : Byte) :
    Rom.read (cell :: t) sc =
      if cell.1 = sc.toNat then (if cell.2 = 0 then none else some cell.2) else Rom.read t sc := rfl

/-- A listed character is the one the lookup answers, in a table in canonical form. -/
theorem Rom.read_of_mem {t : Rom} (h : t.Wf) {a : Nat} {c : Byte} (hm : (a, c) ∈ t) :
    t.read (BitVec.ofNat 8 a) = some c := by
  induction t with
  | nil => cases hm
  | cons cell t ih =>
    obtain ⟨hp, hall⟩ := h
    rw [List.pairwise_cons] at hp
    have hb : ∀ x ∈ cell :: t, (BitVec.ofNat 8 x.1).toNat = x.1 := fun x hx => by
      have := (hall x hx).1
      simp [Nat.mod_eq_of_lt this]
    rw [Rom.read_cons]
    rcases List.mem_cons.1 hm with rfl | hin
    · have h0 := (hall _ List.mem_cons_self).2
      have h1 := hb _ List.mem_cons_self
      simp only at h0 h1
      rw [if_pos h1.symm, if_neg h0]
    · have hlt := hp.1 _ hin
      have h1 := hb _ (List.mem_cons_of_mem _ hin)
      simp only at hlt h1
      rw [if_neg (by omega)]
      exact ih ⟨hp.2, fun x hx => hall x (List.mem_cons_of_mem _ hx)⟩ hin

/-- No lookup answers the character `0x00` (TC4). -/
theorem Rom.read_ne_zero {t : Rom} {sc c : Byte} (h : t.read sc = some c) : c ≠ 0 := by
  induction t with
  | nil => cases h
  | cons cell t ih =>
    rw [Rom.read_cons] at h
    split at h
    · split at h
      · cases h
      · rw [← Option.some.inj h]; assumption
    · exact ih h

theorem Rom.default_wf : Config.defaultNormal.Wf ∧ Config.defaultShift.Wf ∧ Config.defaultNum.Wf ∧
    Config.defaultExt.Wf := by
  refine ⟨?_, ?_, ?_, ?_⟩ <;> decide

/-- The parameters that `State.reset` carries satisfy `N >= 1` and TC1 to TC5. -/
theorem Config.default_wf : Config.default.Wf := by
  refine ⟨by decide, by decide, by decide, by decide, Rom.default_wf, by decide⟩

end Sys2Proof
end

