-- ==== Sys2Proof/Tests/Slice0.lean ====
section
/-! SUPPORT. The model's own tests. Words are written out bit by bit from the encodings of spec/30_encoding.md;
expected results are the vectors of spec/95_test_vectors.md (X1 to X13, V1 to V114), named at each test, which the
spec derives from its own rules. After them, for every statement that has hypotheses, a state and operands that meet
them. -/

namespace Sys2Proof.Tests

open Sys2Proof.Machine

/-! ### Small states -/

/-- A small parameter record that satisfies `N >= 1` and TC1 to TC5 (spec/42_translator.md R158). -/
def tiny : Config :=
  { Config.default with
    n := 2
    tNormal := [(0x16, 0x31), (0x1C, 0x61)]
    tShift := [(0x16, 0x21), (0x1C, 0x61)]
    tNum := [(0x1C, 0x61), (0x75, 0x38)]
    tExt := [(0x71, 0x7F), (0x75, 0x80)] }

/-- The state after reset over the small parameter record. -/
def base : State := { State.reset with cfg := tiny }

/-- The flags that a status word stands for (R20). -/
def flagsOf (w : Word16) : Flags :=
  ⟨w.getLsbD 0, w.getLsbD 1, w.getLsbD 2, w.getLsbD 3, w.getLsbD 4, w.getLsbD 5, w.getLsbD 6, w.getLsbD 7,
    w.getLsbD 8, w.getLsbD 9⟩

def withFlags (w : Word16) : State := { base with flags := flagsOf w }

def receivingAt (p : Fin 12) (sr : Byte) : State := { base with mode := .receiving, pos := p, sr := sr }

def sendingAt (p : Fin 12) (sr : Byte) (d : Drive) : State :=
  { base with mode := .sending, pos := p, sr := sr, datadrv := d }

/-- The outcome is a next state with this property. -/
def nextHas (r : Result) (p : State → Bool) : Bool :=
  match r with
  | .next t => p t
  | .fault _ => false
  | .refused _ => false

/-- The outcome is this refusal. -/
def refuses (r : Result) (why : Refusal) : Bool :=
  match r with
  | .refused e => e == why
  | .next _ => false
  | .fault _ => false

theorem next_of_nextHas {r : Result} {p : State → Bool} (h : nextHas r p = true) : ∃ t, r = .next t ∧ p t = true := by
  cases r with
  | next t => exact ⟨t, rfl, h⟩
  | fault f => cases f
  | refused e => cases h

/-! ### Well-formedness: each check refuses an ill-formed term -/

theorem test_tiny_allowed : tiny.Wf := by decide

/-- `BRK.OTHER` of a Shift key's code, and of the byte `SC.EMPTY` takes (R65, R68). -/
theorem test_wf_brkOther : (Instr.brkOther 0x12).wf tiny = false ∧ (Instr.brkOther 0x00).wf tiny = false ∧
    (Instr.brkOther 0x1C).wf tiny = true := by decide

/-- `EXT.OTHER` of the Ctrl code, of a prefix byte, and of `0x00`; the Shift and lock codes belong to it (R143). -/
theorem test_wf_extOther : (Instr.extOther 0x14).wf tiny = false ∧ (Instr.extOther 0xE0).wf tiny = false ∧
    (Instr.extOther 0x00).wf tiny = false ∧ (Instr.extOther 0x12).wf tiny = true ∧
    (Instr.extOther 0x58).wf tiny = true := by decide

/-- `MAKE.OTHER` of a lock key's code, of the self-test byte, and of `0x00`. -/
theorem test_wf_makeOther : (Instr.makeOther 0x58).wf tiny = false ∧ (Instr.makeOther 0xAA).wf tiny = false ∧
    (Instr.makeOther 0x00).wf tiny = false ∧ (Instr.makeOther 0xFA).wf tiny = true := by decide

/-- `N >= 1` (R5). -/
theorem test_wf_capacity : ¬ ({ tiny with n := 0 } : Config).Wf := by decide

/-- TC1: `0x1C` has to be 'a'. -/
theorem test_wf_tc1 : ¬ ({ tiny with tNormal := [(0x1C, 0x62)], tShift := [(0x1C, 0x62)] } : Config).Wf := by decide

/-- TC2: a letter of the normal table missing in the shifted one, and an uppercase letter there. -/
theorem test_wf_tc2 : ¬ ({ tiny with tShift := [(0x16, 0x21)] } : Config).Wf ∧
    ¬ ({ tiny with tShift := [(0x1C, 0x41)] } : Config).Wf := by decide

/-- TC3: `0x75` with an entry in `T_NORMAL`, without one in `T_NUM`, without one in `T_EXT`. -/
theorem test_wf_tc3 : ¬ ({ tiny with tNormal := [(0x1C, 0x61), (0x75, 0x38)] } : Config).Wf ∧
    ¬ ({ tiny with tNum := [] } : Config).Wf ∧ ¬ ({ tiny with tExt := [] } : Config).Wf :=
  ⟨by decide, by decide, by decide⟩

/-- TC4 with the canonical form: a character `0x00`, two entries for one scancode, an entry for no byte. -/
theorem test_wf_tc4 : ¬ ({ tiny with tExt := [(0x71, 0x00), (0x75, 0x80)] } : Config).Wf ∧
    ¬ ({ tiny with tExt := [(0x75, 0x80), (0x75, 0x81)] } : Config).Wf ∧
    ¬ ({ tiny with tExt := [(0x75, 0x80), (0x175, 0x81)] } : Config).Wf :=
  ⟨by decide, by decide, by decide⟩

/-- TC5: two keys with one code, and a key with a prefix byte as its code. -/
theorem test_wf_tc5 : ¬ ({ tiny with scRshift := 0x12 } : Config).Wf ∧ ¬ ({ tiny with scNum := 0xF0 } : Config).Wf ∧
    ¬ ({ tiny with scAlt := 0x00 } : Config).Wf := ⟨by decide, by decide, by decide⟩

/-! ### Decoding: every constructor's word, written out from its encoding -/

/-- R60, R61 (vectors V1, V13, V20, V24): the first wire bit is bit 0. -/
theorem test_decode_frames :
    decode tiny ⟨.frameRx, 0b00000_1_0_00011100_0⟩ = .ok (.rxFrame false 0x1C false true) ∧
    decode tiny ⟨.frameRx, 0b00000_0_1_01010101_1⟩ = .ok (.rxFrame true 0x55 true false) ∧
    decode tiny ⟨.frameTx, 0b0000_0_1_1_11101101_0⟩ = .ok (.txFrame 0xED false) ∧
    decode tiny ⟨.frameTx, 0b0000_1_1_1_11111111_0⟩ = .ok (.txFrame 0xFF true) := by decide

/-- What is no frame: a bit above the frame; a send frame with a wrong parity, start or stop bit. -/
theorem test_decode_bad_frames :
    decode tiny ⟨.frameRx, 0b00001_1_0_00011100_0⟩ = .error .reservedBits ∧
    decode tiny ⟨.frameTx, 0b0000_0_1_0_11101101_0⟩ = .error .notABlockFrame ∧
    decode tiny ⟨.frameTx, 0b0000_0_1_1_11101101_1⟩ = .error .notABlockFrame ∧
    decode tiny ⟨.frameTx, 0b0000_0_0_1_11101101_0⟩ = .error .notABlockFrame := by decide

/-- The keys of the receive rows (R73): `MODE` in bits 5, 4, `POS` in bits 3 to 0, the level in bit 6. -/
theorem test_decode_receive_rows :
    decode tiny ⟨.edge, 0b000000000_0_00_0000⟩ = .ok (.rxStart false) ∧
    decode tiny ⟨.edge, 0b000000000_1_01_0001⟩ = .ok (.rxData1 true) ∧
    decode tiny ⟨.edge, 0b000000000_0_01_0010⟩ = .ok (.rxData2 false) ∧
    decode tiny ⟨.edge, 0b000000000_1_01_0011⟩ = .ok (.rxData3 true) ∧
    decode tiny ⟨.edge, 0b000000000_0_01_0100⟩ = .ok (.rxData4 false) ∧
    decode tiny ⟨.edge, 0b000000000_1_01_0101⟩ = .ok (.rxData5 true) ∧
    decode tiny ⟨.edge, 0b000000000_0_01_0110⟩ = .ok (.rxData6 false) ∧
    decode tiny ⟨.edge, 0b000000000_1_01_0111⟩ = .ok (.rxData7 true) ∧
    decode tiny ⟨.edge, 0b000000000_0_01_1000⟩ = .ok (.rxData8 false) ∧
    decode tiny ⟨.edge, 0b000000000_1_01_1001⟩ = .ok (.rxParity true) ∧
    decode tiny ⟨.edge, 0b000000000_0_01_1010⟩ = .ok (.rxStop false) := by decide

/-- The keys of the send rows (R73). -/
theorem test_decode_send_rows :
    decode tiny ⟨.edge, 0b000000000_0_10_0000⟩ = .ok (.txStart false) ∧
    decode tiny ⟨.edge, 0b000000000_1_10_0001⟩ = .ok (.txData1 true) ∧
    decode tiny ⟨.edge, 0b000000000_0_10_0010⟩ = .ok (.txData2 false) ∧
    decode tiny ⟨.edge, 0b000000000_1_10_0011⟩ = .ok (.txData3 true) ∧
    decode tiny ⟨.edge, 0b000000000_0_10_0100⟩ = .ok (.txData4 false) ∧
    decode tiny ⟨.edge, 0b000000000_1_10_0101⟩ = .ok (.txData5 true) ∧
    decode tiny ⟨.edge, 0b000000000_0_10_0110⟩ = .ok (.txData6 false) ∧
    decode tiny ⟨.edge, 0b000000000_1_10_0111⟩ = .ok (.txData7 true) ∧
    decode tiny ⟨.edge, 0b000000000_0_10_1000⟩ = .ok (.txData8 false) ∧
    decode tiny ⟨.edge, 0b000000000_1_10_1001⟩ = .ok (.txParity true) ∧
    decode tiny ⟨.edge, 0b000000000_0_10_1010⟩ = .ok (.txStop false) ∧
    decode tiny ⟨.edge, 0b000000000_1_10_1011⟩ = .ok (.txAck true) := by decide

/-- Pairs that R73 does not list: Idle with a position, Receiving at 0 and 11, the fourth mode, positions above 11. -/
theorem test_decode_bad_keys :
    decode tiny ⟨.edge, 0b000000000_0_00_0001⟩ = .error .unreachableKey ∧
    decode tiny ⟨.edge, 0b000000000_0_01_0000⟩ = .error .unreachableKey ∧
    decode tiny ⟨.edge, 0b000000000_0_01_1011⟩ = .error .unreachableKey ∧
    decode tiny ⟨.edge, 0b000000000_0_11_0001⟩ = .error .unreachableKey ∧
    decode tiny ⟨.edge, 0b000000000_0_10_1100⟩ = .error .unreachableKey ∧
    decode tiny ⟨.edge, 0b000000001_0_00_0000⟩ = .error .reservedBits := by decide

/-- The fixed bytes and the break rows (R65, R67, R70): bits 10, 9, 8 are LOCKPEND, EXT, BRK. -/
theorem test_decode_breaks :
    decode tiny ⟨.sc, 0b00000_0_0_0_00000000⟩ = .ok .scEmpty ∧
    decode tiny ⟨.sc, 0b00000_0_0_1_11100000⟩ = .ok .extPrefix ∧
    decode tiny ⟨.sc, 0b00000_1_1_1_11110000⟩ = .ok .breakPrefix ∧
    decode tiny ⟨.sc, 0b00000_0_0_0_10101010⟩ = .ok .batOk ∧
    decode tiny ⟨.sc, 0b00000_0_0_1_00010010⟩ = .ok .brkLshift ∧
    decode tiny ⟨.sc, 0b00000_0_0_1_01011001⟩ = .ok .brkRshift ∧
    decode tiny ⟨.sc, 0b00000_0_1_1_00010100⟩ = .ok .brkCtrl ∧
    decode tiny ⟨.sc, 0b00000_0_0_1_00010001⟩ = .ok .brkAlt ∧
    decode tiny ⟨.sc, 0b00000_1_0_1_01011000⟩ = .ok .brkCaps ∧
    decode tiny ⟨.sc, 0b00000_0_0_1_01110111⟩ = .ok .brkNum ∧
    decode tiny ⟨.sc, 0b00000_0_0_1_01111110⟩ = .ok .brkScroll ∧
    decode tiny ⟨.sc, 0b00000_0_0_1_00011100⟩ = .ok (.brkOther 0x1C) := by decide

/-- The extended and the plain rows (R65, R67, R70). -/
theorem test_decode_makes :
    decode tiny ⟨.sc, 0b00000_0_1_0_00010100⟩ = .ok .extCtrl ∧
    decode tiny ⟨.sc, 0b00000_0_1_0_00010001⟩ = .ok .extAlt ∧
    decode tiny ⟨.sc, 0b00000_0_1_0_01110101⟩ = .ok (.extOther 0x75) ∧
    decode tiny ⟨.sc, 0b00000_0_0_0_00010010⟩ = .ok .makeLshift ∧
    decode tiny ⟨.sc, 0b00000_0_0_0_01011001⟩ = .ok .makeRshift ∧
    decode tiny ⟨.sc, 0b00000_0_0_0_00010100⟩ = .ok .makeCtrl ∧
    decode tiny ⟨.sc, 0b00000_0_0_0_00010001⟩ = .ok .makeAlt ∧
    decode tiny ⟨.sc, 0b00000_0_0_0_01011000⟩ = .ok .makeCaps ∧
    decode tiny ⟨.sc, 0b00000_0_0_0_01110111⟩ = .ok .makeNum ∧
    decode tiny ⟨.sc, 0b00000_0_0_0_01111110⟩ = .ok .makeScroll ∧
    decode tiny ⟨.sc, 0b00000_1_0_0_01011000⟩ = .ok .makeCapsLatched ∧
    decode tiny ⟨.sc, 0b00000_1_0_0_01110111⟩ = .ok .makeNumLatched ∧
    decode tiny ⟨.sc, 0b00000_1_0_0_01111110⟩ = .ok .makeScrollLatched ∧
    decode tiny ⟨.sc, 0b00000_0_0_0_00011100⟩ = .ok (.makeOther 0x1C) := by decide

/-- The LED update (R71), and a command the block does not build. -/
theorem test_decode_command :
    decode tiny ⟨.cmd, 0b11101101_00000_1_0_1⟩ = .ok (.ledCommand true false true) ∧
    decode tiny ⟨.cmd, 0b11101101_00001_1_0_1⟩ = .error .notTheLedCommand ∧
    decode tiny ⟨.cmd, 0b11110100_00000_0_0_0⟩ = .error .notTheLedCommand := by decide

/-- The eleven tags (R79). -/
theorem test_decode_operations :
    decode tiny ⟨.op, 0b00000000000_1_0000⟩ = .ok (.edge true) ∧
    decode tiny ⟨.op, 0b000000000000_0001⟩ = .ok .sendStart ∧
    decode tiny ⟨.op, 0b0000_00011100_0010⟩ = .ok (.enqueue 0x1C) ∧
    decode tiny ⟨.op, 0b000000000000_0011⟩ = .ok .dequeue ∧
    decode tiny ⟨.op, 0b0000_11110000_0100⟩ = .ok (.translate 0xF0) ∧
    decode tiny ⟨.op, 0b000000000000_0101⟩ = .ok .consume ∧
    decode tiny ⟨.op, 0b000000000000_0110⟩ = .ok .poll ∧
    decode tiny ⟨.op, 0b0000_11110100_0111⟩ = .ok (.sendCommand 0xF4) ∧
    decode tiny ⟨.op, 0b000000000_1_0_0_1000⟩ = .ok (.setLeds true false false) ∧
    decode tiny ⟨.op, 0b000000000000_1001⟩ = .ok .status ∧
    decode tiny ⟨.op, 0b00000000000_0_1010⟩ = .ok (.init .reset) ∧
    decode tiny ⟨.op, 0b00000000000_1_1010⟩ = .ok (.init .call) ∧
    decode tiny ⟨.op, 0b000000000000_1011⟩ = .error .unknownTag ∧
    decode tiny ⟨.op, 0b000000000001_0101⟩ = .error .reservedBits := by decide

/-- Words of spec/opcode_table.json: an edge key, a tag, a scancode, the LED update, a send frame. -/
theorem test_table_words :
    decodeTableWord 8 0x13 = some (.rxData3 false) ∧ decodeTableWord 8 0x05 = some .consume ∧
    decodeTableWord 8 0xF0 = some .breakPrefix ∧ decodeTableWord 16 0xED05 = some (.ledCommand true false true) ∧
    decodeTableWord 16 0b0_10110111_1_1_0 = some (.txFrame 0xED false) ∧
    decodeTableWord 16 0 = some (.rxFrame false 0x00 false false) := by decide

/-- Encoding writes the same words (R60, R73, R71, R79). -/
theorem test_encode :
    encode tiny (.rxFrame false 0x1C false true) = ⟨.frameRx, 0b00000_1_0_00011100_0⟩ ∧
    encode tiny (.txData4 true) = ⟨.edge, 0b000000000_1_10_0100⟩ ∧
    encode tiny .brkCtrl = ⟨.sc, 0b00000_0_0_1_00010100⟩ ∧
    encode tiny (.ledCommand false true false) = ⟨.cmd, 0b11101101_00000_0_1_0⟩ ∧
    encode tiny (.enqueue 0xAA) = ⟨.op, 0b0000_10101010_0010⟩ := by decide

/-! ### Parity (R63) and the status word (R20) -/

/-- The parity bits of vectors V1, V2, V9, V10, V20, V21. -/
theorem test_parity : parity 0x1C = false ∧ parity 0xF0 = true ∧ parity 0x00 = true ∧ parity 0xFF = true ∧
    parity 0xED = true ∧ parity 0x04 = false := by decide

/-- Each flag at its bit (R20). -/
theorem test_status_word : (flagsOf 0x0201).word = 0x0201 ∧ Flags.word (flagsOf 0x03FF) = 0x03FF ∧
    (⟨true, false, false, false, false, true, false, false, false, false⟩ : Flags).word = 0x0021 ∧
    (⟨false, false, false, false, false, false, false, false, true, false⟩ : Flags).word = 0x0100 := by decide

/-! ### Receive (vectors V1 to V13): each row's one step -/

/-- R91 with the start level 1: the level is not checked and `SR` is cleared. -/
theorem test_rxStart : nextHas (exec (.rxStart true) { base with sr := 0x99 })
    (fun t => t.mode == .receiving && t.pos == 1 && t.sr == 0x00) = true := by decide

/-- R92 inside V13. -/
theorem test_rxData1 : nextHas (exec (.rxData1 true) (receivingAt 1 0x00))
    (fun t => t.sr == 0x01 && t.pos == 2 && t.mode == .receiving) = true := by decide

/-- R92 inside V3. -/
theorem test_rxData2 : nextHas (exec (.rxData2 true) (receivingAt 2 0x00))
    (fun t => t.sr == 0x02 && t.pos == 3 && t.mode == .receiving) = true := by decide

/-- R92 inside V13. -/
theorem test_rxData3 : nextHas (exec (.rxData3 true) (receivingAt 3 0x01))
    (fun t => t.sr == 0x05 && t.pos == 4 && t.mode == .receiving) = true := by decide

/-- R92 inside V1. -/
theorem test_rxData4 : nextHas (exec (.rxData4 true) (receivingAt 4 0x04))
    (fun t => t.sr == 0x0C && t.pos == 5 && t.mode == .receiving) = true := by decide

/-- R92 inside V1. -/
theorem test_rxData5 : nextHas (exec (.rxData5 true) (receivingAt 5 0x0C))
    (fun t => t.sr == 0x1C && t.pos == 6 && t.mode == .receiving) = true := by decide

/-- R92 inside V1. -/
theorem test_rxData6 : nextHas (exec (.rxData6 false) (receivingAt 6 0x1C))
    (fun t => t.sr == 0x1C && t.pos == 7 && t.mode == .receiving) = true := by decide

/-- R92 inside V13. -/
theorem test_rxData7 : nextHas (exec (.rxData7 true) (receivingAt 7 0x15))
    (fun t => t.sr == 0x55 && t.pos == 8 && t.mode == .receiving) = true := by decide

/-- R92 inside V12. -/
theorem test_rxData8 : nextHas (exec (.rxData8 true) (receivingAt 8 0x00))
    (fun t => t.sr == 0x80 && t.pos == 9 && t.mode == .receiving) = true := by decide

/-- R93 with the wrong parity level. -/
theorem test_rxParity : nextHas (exec (.rxParity true) (receivingAt 9 0x1C))
    (fun t => t.sr == 0x1C && t.pos == 10 && t.q == []) = true := by decide

/-- R94, end of V1. -/
theorem test_rxStop : nextHas (exec (.rxStop true) (receivingAt 10 0x1C))
    (fun t => t.q == [0x1C] && t.pos == 0 && t.mode == .idle) = true := by decide

/-- R94 on a full queue (V32), stop level 0. -/
theorem test_rxStop_full : nextHas (exec (.rxStop false) { receivingAt 10 0x1C with q := [0x1C, 0xF0] })
    (fun t => t.q == [0x1C, 0xF0] && t.pos == 0 && t.mode == .idle) = true := by decide

/-- R60, V1 as one operation. -/
theorem test_rxFrame : nextHas (exec (.rxFrame false 0x1C false true) base)
    (fun t => t == { base with sr := 0x1C, q := [0x1C] }) = true := by decide

/-- R96: no framing bit is checked (V2 with the other three levels wrong). -/
theorem test_rxFrame_levels : nextHas (exec (.rxFrame true 0xF0 false false) base)
    (fun t => t.q == [0xF0] && t.mode == .idle) = true := by decide

/-! ### Send (vector V20, the byte `0xED`): each row's one step -/

/-- R107. -/
theorem test_sendStart : nextHas (exec .sendStart { base with cmdp := [0xED, 0x04] })
    (fun t => t == { sendingAt 1 0xED .low with
      cmdp := [0x04]
      trace := [.clk .released, .data .low, .rts 100, .clk .low] }) = true := by decide

/-- R107, D12: no send starts inside a receive frame. -/
theorem test_sendStart_held : nextHas (exec .sendStart { receivingAt 3 0x04 with cmdp := [0xED] })
    (fun t => t.cmdp == [0xED] && t.mode == .receiving && t.sr == 0x04 && t.calls == [⟨.op, 1⟩]) = true := by decide

/-- R100. -/
theorem test_txStart : nextHas (exec (.txStart true) (sendingAt 0 0xED .low))
    (fun t => t.pos == 1 && t.datadrv == .low && t.mode == .sending) = true := by decide

/-- R101 inside V20. -/
theorem test_txData1 : nextHas (exec (.txData1 false) (sendingAt 1 0xED .low))
    (fun t => t.datadrv == .released && t.pos == 2 && t.sr == 0xED) = true := by decide

/-- R101 inside V20. -/
theorem test_txData2 : nextHas (exec (.txData2 false) (sendingAt 2 0xED .released))
    (fun t => t.datadrv == .low && t.pos == 3 && t.sr == 0xED) = true := by decide

/-- R101 inside V20. -/
theorem test_txData3 : nextHas (exec (.txData3 false) (sendingAt 3 0xED .low))
    (fun t => t.datadrv == .released && t.pos == 4 && t.sr == 0xED) = true := by decide

/-- R101 inside V20. -/
theorem test_txData4 : nextHas (exec (.txData4 false) (sendingAt 4 0xED .low))
    (fun t => t.datadrv == .released && t.pos == 5 && t.sr == 0xED) = true := by decide

/-- R101 inside V20. -/
theorem test_txData5 : nextHas (exec (.txData5 false) (sendingAt 5 0xED .released))
    (fun t => t.datadrv == .low && t.pos == 6 && t.sr == 0xED) = true := by decide

/-- R101 inside V20. -/
theorem test_txData6 : nextHas (exec (.txData6 false) (sendingAt 6 0xED .low))
    (fun t => t.datadrv == .released && t.pos == 7 && t.sr == 0xED) = true := by decide

/-- R101 inside V20. -/
theorem test_txData7 : nextHas (exec (.txData7 false) (sendingAt 7 0xED .low))
    (fun t => t.datadrv == .released && t.pos == 8 && t.sr == 0xED) = true := by decide

/-- R101 inside V20. -/
theorem test_txData8 : nextHas (exec (.txData8 false) (sendingAt 8 0xED .low))
    (fun t => t.datadrv == .released && t.pos == 9 && t.sr == 0xED) = true := by decide

/-- R102, V20: `P(0xED) = 1`. -/
theorem test_txParity : nextHas (exec (.txParity false) (sendingAt 9 0xED .low))
    (fun t => t.datadrv == .released && t.pos == 10) = true := by decide

/-- R102, V21: `P(0x04) = 0`. -/
theorem test_txParity_low : nextHas (exec (.txParity true) (sendingAt 9 0x04 .released))
    (fun t => t.datadrv == .low && t.pos == 10) = true := by decide

/-- R103. -/
theorem test_txStop : nextHas (exec (.txStop false) (sendingAt 10 0x04 .low))
    (fun t => t.datadrv == .released && t.pos == 11 && t.mode == .sending) = true := by decide

/-- R104: the acknowledge level is ignored. -/
theorem test_txAck : nextHas (exec (.txAck true) (sendingAt 11 0xED .released))
    (fun t => t == { base with sr := 0xED }) = true := by decide

/-- V21: what goes out on the data wire, newest first. -/
theorem test_txFrame : nextHas (exec (.txFrame 0x04 true) { base with cmdp := [0x04] })
    (fun t => t.mode == .idle && t.pos == 0 && t.sr == 0x04 && t.cmdp == [] &&
      t.trace == [.data .released, .data .low, .data .low, .data .low, .data .low, .data .low, .data .low,
        .data .released, .data .low, .data .low, .clk .released, .data .low, .rts 100, .clk .low]) = true := by decide

/-- R90 at the pair of `RX.DATA.4`. -/
theorem test_edge : nextHas (exec (.edge true) (receivingAt 4 0x04))
    (fun t => t == receivingAt 5 0x0C) = true := by decide

/-- No row answers in another pair (R73), and no edge where R73 lists no pair (R14, U9). -/
theorem test_edge_stops : refuses (exec (.rxData4 true) (receivingAt 5 0x00)) .notSelected = true ∧
    refuses (exec (.edge true) (receivingAt 11 0x00)) .unreachablePair = true ∧
    refuses (exec (.edge false) ({ base with pos := 3 })) .unreachablePair = true ∧
    refuses (step (receivingAt 11 0x00)) .brokenState = true := by decide

/-! ### The queue (vectors V30 to V36, `N = 2`) -/

/-- V31. -/
theorem test_enqueue : nextHas (exec (.enqueue 0xF0) { base with q := [0x1C] })
    (fun t => t.q == [0x1C, 0xF0] && t.trace == [.enqueue true]) = true := by decide

/-- V32. -/
theorem test_enqueue_full : nextHas (exec (.enqueue 0x1C) { base with q := [0x1C, 0xF0] })
    (fun t => t.q == [0x1C, 0xF0] && t.trace == [.enqueue false]) = true := by decide

/-- V33. -/
theorem test_dequeue : nextHas (exec .dequeue { base with q := [0x1C, 0xF0] })
    (fun t => t.q == [0xF0] && t.trace == [.dequeue 0x1C]) = true := by decide

/-- V34. -/
theorem test_dequeue_empty : nextHas (exec .dequeue base)
    (fun t => t.q == [] && t.trace == [.dequeue 0x00]) = true := by decide

/-- The ring buffer on the bytes of V31 and V33, with its write wrapping round (R125). -/
theorem test_ring : (Ring.enqueue ⟨[0x00, 0x1C], 1, 1⟩ 0xF0).2.contents = [0x1C, 0xF0] ∧
    Ring.dequeue ⟨[0xF0, 0x1C], 1, 2⟩ = (0x1C, ⟨[0xF0, 0x1C], 0, 1⟩) := by decide

/-! ### The scancode rows: status word before, result, status word after, LED update -/

def scTest (i : Instr) (before : Word16) (result : ConsumeResult) (after : Word16) (leds : List Byte) : Bool :=
  nextHas (exec i (withFlags before)) (fun t =>
    t.flags.word == after && t.cmdp == leds && t.trace == [.consume result] && t.q == [] && t.mode == .idle)

/-- R156 (V35). -/
theorem test_scEmpty : scTest .scEmpty 0x0130 .empty 0x0130 [] = true := by decide

/-- V44. -/
theorem test_extPrefix : scTest .extPrefix 0x0010 .nochar 0x0018 [] = true := by decide

/-- V43. -/
theorem test_breakPrefix : scTest .breakPrefix 0x0008 .nochar 0x0018 [] = true := by decide

/-- V46. -/
theorem test_batOk : scTest .batOk 0x0010 .nochar 0x0210 [] = true := by decide

/-- V47. -/
theorem test_brkLshift : scTest .brkLshift 0x0011 .nochar 0x0000 [] = true := by decide

/-- V48. -/
theorem test_brkRshift : scTest .brkRshift 0x0011 .nochar 0x0000 [] = true := by decide

/-- V50. -/
theorem test_brkCtrl : scTest .brkCtrl 0x001A .nochar 0x0000 [] = true := by decide

/-- V51. -/
theorem test_brkAlt : scTest .brkAlt 0x0014 .nochar 0x0000 [] = true := by decide

/-- V52. -/
theorem test_brkCaps : scTest .brkCaps 0x0130 .nochar 0x0020 [] = true := by decide

/-- V53. -/
theorem test_brkNum : scTest .brkNum 0x0130 .nochar 0x0020 [] = true := by decide

/-- V54. -/
theorem test_brkScroll : scTest .brkScroll 0x0190 .nochar 0x0080 [] = true := by decide

/-- V56. -/
theorem test_brkOther : scTest (.brkOther 0x75) 0x0018 .nochar 0x0000 [] = true := by decide

/-- V58. -/
theorem test_extCtrl : scTest .extCtrl 0x0008 .nochar 0x0002 [] = true := by decide

/-- V59. -/
theorem test_extAlt : scTest .extAlt 0x0008 .nochar 0x0004 [] = true := by decide

/-- V61. -/
theorem test_extOther : scTest (.extOther 0x71) 0x0029 (.char 0x7F) 0x0021 [] = true := by decide

/-- V63. -/
theorem test_extOther_none : scTest (.extOther 0x58) 0x0008 .nochar 0x0000 [] = true := by decide

/-- V65. -/
theorem test_makeLshift : scTest .makeLshift 0x0000 .nochar 0x0001 [] = true := by decide

/-- V67. -/
theorem test_makeRshift : scTest .makeRshift 0x0000 .nochar 0x0001 [] = true := by decide

/-- V68. -/
theorem test_makeCtrl : scTest .makeCtrl 0x0000 .nochar 0x0002 [] = true := by decide

/-- V69. -/
theorem test_makeAlt : scTest .makeAlt 0x0000 .nochar 0x0004 [] = true := by decide

/-- V71. -/
theorem test_makeCaps : scTest .makeCaps 0x0020 .nochar 0x0100 [0xED, 0x00] = true := by decide

/-- V75. -/
theorem test_makeCaps_leds : scTest .makeCaps 0x00C0 .nochar 0x01E0 [0xED, 0x07] = true := by decide

/-- V74. -/
theorem test_makeNum : scTest .makeNum 0x0020 .nochar 0x0160 [0xED, 0x06] = true := by decide

/-- V73. -/
theorem test_makeScroll : scTest .makeScroll 0x0000 .nochar 0x0180 [0xED, 0x01] = true := by decide

/-- V76. -/
theorem test_makeCapsLatched : scTest .makeCapsLatched 0x0120 .nochar 0x0120 [] = true := by decide

/-- V77. -/
theorem test_makeNumLatched : scTest .makeNumLatched 0x0120 .nochar 0x0120 [] = true := by decide

/-- R150, R153, no entry for the code. -/
theorem test_makeScrollLatched : scTest .makeScrollLatched 0x0180 .nochar 0x0180 [] = true := by decide

/-- V80. -/
theorem test_makeOther_folds : scTest (.makeOther 0x1C) 0x0020 (.char 0x41) 0x0020 [] = true := by decide

/-- V83. -/
theorem test_makeOther_shift : scTest (.makeOther 0x16) 0x0001 (.char 0x21) 0x0001 [] = true := by decide

/-- No scancode row answers in another context or for a byte of another class. -/
theorem test_sc_stops : refuses (exec .brkCtrl (withFlags 0x0008)) .notSelected = true ∧
    refuses (exec .makeCaps (withFlags 0x0100)) .notSelected = true ∧
    refuses (exec (.makeOther 0x12) (withFlags 0x0000)) .notSelected = true := by decide

/-! ### The operations of the host -/

/-- V79 through the queue. -/
theorem test_consume : nextHas (exec .consume { withFlags 0x0001 with q := [0x1C, 0xF0] })
    (fun t => t.q == [0xF0] && t.trace == [.consume (.char 0x41)]) = true := by decide

/-- V87: Shift wins over NumLock. -/
theorem test_consume_num : nextHas (exec .consume { withFlags 0x0041 with q := [0x75] })
    (fun t => t.q == [] && t.trace == [.consume .nochar] && t.flags.word == 0x0041) = true := by decide

/-- V75: the request alone; the update is `CONSUME`'s. -/
theorem test_translate : nextHas (exec (.translate 0x58) (withFlags 0x00C0))
    (fun t => t.flags.word == 0x01E0 && t.cmdp == [] && t.trace == [.translate none true]) = true := by decide

/-- X2 with NumLock on. -/
theorem test_translate_key : nextHas (exec (.translate 0x1C) (withFlags 0x0041))
    (fun t => t.flags.word == 0x0041 && t.trace == [.translate (some 0x41) false]) = true := by decide

/-- R157, X6: the prefix gives no character, and the call goes round again. -/
theorem test_poll : nextHas (exec .poll { base with q := [0xE0, 0x75] })
    (fun t => t.q == [0x75] && t.trace == [] && t.calls == [⟨.op, 6⟩] && t.flags.word == 0x0008) = true := by decide

/-- X6: the second turn returns the character. -/
theorem test_poll_char : nextHas (exec .poll { withFlags 0x0008 with q := [0x75] })
    (fun t => t.q == [] && t.trace == [.poll (some 0x80)]) = true := by decide

/-- R172. -/
theorem test_sendCommand : nextHas (exec (.sendCommand 0xF4) base)
    (fun t => t == { base with cmdp := [0xF4] }) = true := by decide

/-- R171: the call waits. -/
theorem test_sendCommand_held : nextHas (exec (.sendCommand 0xF4) { base with cmdp := [0xED] })
    (fun t => t.cmdp == [0xED] && t.calls.length == 1) = true := by decide

/-- R175, D32: no flag is written. -/
theorem test_setLeds : nextHas (exec (.setLeds false true true) (withFlags 0x0020))
    (fun t => t.cmdp == [0xED, 0x03] && t.flags.word == 0x0020) = true := by decide

/-- R71. -/
theorem test_ledCommand : nextHas (exec (.ledCommand true true false) base)
    (fun t => t.cmdp == [0xED, 0x06] && t.trace == []) = true := by decide

/-- R178 with the word of V70. -/
theorem test_status : nextHas (exec .status (withFlags 0x0120))
    (fun t => t.trace == [.status 0x0120]) = true := by decide

/-- R180 in the middle of a send. -/
theorem test_init_reset : nextHas (exec (.init .reset) { sendingAt 5 0xED .low with cmdp := [0x04], q := [0x1C] })
    (fun t => t.mode == .idle && t.pos == 0 && t.sr == 0x00 && t.datadrv == .released && t.q == [] && t.cmdp == []) = true := by decide

/-- R180 as the call; no LED update is sent (D23). -/
theorem test_init_call : nextHas (exec (.init .call) (withFlags 0x03FF))
    (fun t => t.flags.word == 0x0000 && t.cmdp == []) = true := by decide

/-- One step: the line's event, the foreground's operation, and a held operation passed over (R48, R75). -/
theorem test_step :
    nextHas (step { base with turns := [.line, .foreground], events := [⟨.op, 0b00000000000_1_0000⟩] })
      (fun t => t.mode == .receiving && t.events == [] && t.turns == [.foreground]) = true ∧
    nextHas (step { base with turns := [.foreground], calls := [⟨.op, 1⟩, ⟨.op, 9⟩] })
      (fun t => t.calls == [⟨.op, 1⟩] && t.trace == [.status 0x0000]) = true ∧
    nextHas (step base) (fun t => t == base) = true ∧
    refuses (step { base with turns := [.line], events := [⟨.op, 11⟩] }) (.illegalCode .unknownTag) = true := by decide

/-- A word of the table placed after reset is what the next step runs. -/
theorem test_placed_words :
    nextHas (step (State.reset.withFetchWord 8 0x13)) (fun t => t.mode == .receiving && t.pos == 4) = true ∧
    nextHas (step (State.reset.withFetchWord 8 0xE0)) (fun t => t.flags.word == 0x0008) = true ∧
    nextHas (step (State.reset.withFetchWord 16 0xED02)) (fun t => t.cmdp == [0xED, 0x02]) = true ∧
    nextHas (step (State.reset.withFetchWord 16 2)) (fun t => t.cmdp == [] && t.mode == .idle) = true := by decide

/-- After reset: the values of R23, nothing listed, and the parameters' tables in canonical form. -/
theorem test_reset : State.reset.flags.word = 0x0000 ∧ State.reset.q = [] ∧ State.reset.events = [] ∧
    State.reset.calls = [] ∧ State.reset.turns = [] ∧ State.reset.trace = [] := by decide

theorem test_reset_tables : State.reset.cfg.tNormal.Wf ∧ State.reset.cfg.tShift.Wf ∧ State.reset.cfg.tNum.Wf ∧
    State.reset.cfg.tExt.Wf := Rom.default_wf
/-! ### Witnesses: for each statement with hypotheses, states and operands that meet them, at the ends of the ranges

Where a statement names a value by an equation (`led = fun …`, `f = …`), any use of it supplies that value; the other
hypotheses are met here. -/

theorem inv_base : base.Inv :=
  ⟨by decide, by decide, by decide, by decide, by decide, by decide, by decide, test_tiny_allowed⟩

theorem inv_receiving_first : (receivingAt 1 0x00).Inv :=
  ⟨by decide, by decide, by decide, by decide, by decide, by decide, by decide, test_tiny_allowed⟩

theorem inv_receiving_last : ({ receivingAt 10 0x1C with q := [0x1C, 0xF0] } : State).Inv :=
  ⟨by decide, by decide, by decide, by decide, by decide, by decide, by decide, test_tiny_allowed⟩

theorem inv_sending_first : ({ sendingAt 1 0xED .low with cmdp := [0x04] } : State).Inv :=
  ⟨by decide, by decide, by decide, by decide, by decide, by decide, by decide, test_tiny_allowed⟩

theorem inv_sending_last : (sendingAt 11 0xED .released).Inv :=
  ⟨by decide, by decide, by decide, by decide, by decide, by decide, by decide, test_tiny_allowed⟩

theorem inv_pending : ({ base with cmdp := [0xED, 0x04] } : State).Inv :=
  ⟨by decide, by decide, by decide, by decide, by decide, by decide, by decide, test_tiny_allowed⟩

theorem witness_EveryOperationDecodesFromItsCode : tiny.Wf ∧ (Instr.brkOther 0x01).wf tiny = true ∧
    (Instr.extOther 0x58).wf tiny = true ∧ (Instr.makeOther 0xFF).wf tiny = true :=
  ⟨test_tiny_allowed, by decide, by decide, by decide⟩

theorem witness_CodesOutsideScAreUnique : Format.op ≠ .sc ∧ decode tiny ⟨.op, 5⟩ = .ok .consume ∧
    Format.frameRx ≠ .sc ∧ decode tiny ⟨.frameRx, 0⟩ = .ok (.rxFrame false 0x00 false false) := by decide

theorem witness_DecodingYieldsWellFormedRows : decode tiny ⟨.sc, 0b00000_0_1_0_01110101⟩ = .ok (.extOther 0x75) ∧
    decode tiny ⟨.edge, 0⟩ = .ok (.rxStart false) := by decide

def lineTurn : State := { base with turns := [.line], events := [⟨.op, 0⟩] }

def foregroundTurn : State := { base with turns := [.foreground], calls := [⟨.op, 1⟩, ⟨.op, 9⟩, ⟨.op, 5⟩] }

theorem witness_StepRunsTheDecodedOperation_line : lineTurn.legal = true ∧
    decode lineTurn.cfg ⟨.op, 0⟩ = .ok (.edge false) ∧ lineTurn.turns = .line :: [] ∧
    lineTurn.events = ⟨.op, 0⟩ :: [] := by decide

theorem witness_StepRunsTheDecodedOperation_foreground : foregroundTurn.legal = true ∧
    decode foregroundTurn.cfg ⟨.op, 9⟩ = .ok .status ∧ foregroundTurn.turns = .foreground :: [] ∧
    foregroundTurn.calls = [⟨.op, 1⟩] ++ ⟨.op, 9⟩ :: [⟨.op, 5⟩] ∧
    (∀ x ∈ [(⟨.op, 1⟩ : Code)], foregroundTurn.holds x = true) ∧ foregroundTurn.holds ⟨.op, 9⟩ = false ∧
    agentOf .status = .foreground ∧ agentOf (.edge false) = .line ∧ enclosing .status = none := by decide

/-- R231, U11: a foreground call in the line's list and an edge in the foreground's are refused. -/
theorem test_other_agent :
    refuses (step { base with turns := [.line], events := [⟨.op, 5⟩] }) .otherAgent = true ∧
    refuses (step { base with turns := [.foreground], calls := [⟨.op, 0⟩] }) .otherAgent = true := by decide

/-- R75: the parts are not scheduled on their own. -/
theorem test_inside_only :
    refuses (step { base with turns := [.line], events := [encode tiny (.enqueue 0x1C)] }) .insideOnly = true ∧
    refuses (step { base with turns := [.foreground], calls := [encode tiny .dequeue] }) .insideOnly = true ∧
    refuses (step { base with turns := [.foreground], calls := [encode tiny (.translate 0x12)] }) .insideOnly = true ∧
    refuses (step { base with turns := [.foreground], calls := [encode tiny .makeLshift] }) .insideOnly = true := by
  decide

/-- R75: the words of `ENQUEUE`, `DEQUEUE` and `TRANSLATE` run inside `RX.STOP` and `CONSUME`. -/
theorem test_placed_parts :
    nextHas (step (State.reset.withFetchWord 8 2)) (fun t => t.q == [0x00] && t.mode == .idle) = true ∧
    nextHas (step (State.reset.withFetchWord 8 3)) (fun t => t.trace == [.consume .empty]) = true ∧
    nextHas (step ({ State.reset with q := [0x1C, 0x12] }.withFetchWord 8 0xF0))
      (fun t => t.q == [0x12] && t.flags.brk && t.trace == [.consume .nochar]) = true := by decide

/-- R182, R231: while a `POLL` waits for a send, the `DEQUEUE` behind it waits too. -/
theorem test_one_thread : nextHas (step { receivingAt 3 0x04 with
      cmdp := [0xED], turns := [.foreground], calls := [⟨.op, 6⟩, ⟨.op, 3⟩], q := [0x1C] })
    (fun t => t.calls == [⟨.op, 6⟩, ⟨.op, 3⟩] && t.q == [0x1C]) = true := by decide

/-- R14: the pair (Sending, 0) is no start state, positions 1 and 11 are. -/
theorem test_legal_sending : (sendingAt 0 0xED .low).legal = false ∧ (sendingAt 1 0xED .low).legal = true ∧
    (sendingAt 11 0xED .released).legal = true := by decide

/-- The word of `TX.START` runs inside `SEND_START`, as the next step after reset. -/
theorem test_placed_txStart : decode State.reset.cfg (tableCode 8 0x20) = .ok (.txStart false) ∧
    nextHas (step (State.reset.withFetchWord 8 0x20)) (fun t => t.mode == .sending && t.pos == 1) = true := by decide

theorem witness_StepWithNoOperationToRun : (receivingAt 11 0x00).legal = false ∧
    (base.legal = true ∧ base.turns = []) ∧
    (let s : State := { base with turns := [.line] };
      s.legal = true ∧ s.turns = .line :: [] ∧ s.events = []) ∧
    (let s : State := { base with turns := [.foreground], calls := [⟨.op, 1⟩] };
      s.legal = true ∧ s.turns = .foreground :: [] ∧ ∀ x ∈ s.calls, s.holds x = true) ∧
    (let s : State := { base with turns := [.line], events := [⟨.op, 15⟩] };
      s.legal = true ∧ s.turns = .line :: [] ∧ s.events = ⟨.op, 15⟩ :: [] ∧
        decode s.cfg ⟨.op, 15⟩ = .error .unknownTag) ∧
    (let s : State := { base with turns := [.foreground], calls := [⟨.op, 1⟩, ⟨.op, 15⟩] };
      s.legal = true ∧ s.turns = .foreground :: [] ∧ s.calls = [⟨.op, 1⟩] ++ ⟨.op, 15⟩ :: [] ∧
        (∀ x ∈ [(⟨.op, 1⟩ : Code)], s.holds x = true) ∧ decode s.cfg ⟨.op, 15⟩ = .error .unknownTag) := by decide

theorem witness_PlacedWordRunsNext :
    (decode base.cfg (tableCode 8 0x2B) = .ok (.txAck false) ∧ (base.selecting (.txAck false)).legal = true ∧
      enclosing (.txAck false) = none ∧ (base.selecting (.txAck false)).holds (tableCode 8 0x2B) = false) ∧
    (decode base.cfg (tableCode 8 0xF0) = .ok .breakPrefix ∧ (base.selecting .breakPrefix).legal = true ∧
      Instr.breakPrefix.format = .sc ∧ base.cmdp = []) ∧
    (decode base.cfg (tableCode 8 2) = .ok (.enqueue 0x00) ∧ (base.selecting (.enqueue 0x00)).legal = true) ∧
    (decode base.cfg (tableCode 8 4) = .ok (.translate 0x00) ∧ (base.selecting (.translate 0x00)).legal = true) ∧
    (decode base.cfg (tableCode 16 2) = .ok (.txFrame 0x00 false) ∧
      (base.selecting (.txFrame 0x00 false)).legal = true ∧
      (base.selecting (.txFrame 0x00 false)).holds (tableCode 16 2) = false) ∧
    (decode base.cfg (tableCode 8 0x20) = .ok (.txStart false) ∧
      (base.selecting (.txStart false)).legal = true) := by decide

theorem witness_EveryStepKeepsTheInvariant : ∃ s t, s.Inv ∧ step s = .next t ∧ t ≠ s := by
  refine ⟨lineTurn, ?_⟩
  obtain ⟨t, ht, hp⟩ := next_of_nextHas
    (show nextHas (step lineTurn) (fun t => t.mode == .receiving) = true by decide)
  refine ⟨t, ⟨by decide, by decide, by decide, by decide, by decide, by decide, by decide, test_tiny_allowed⟩, ht, ?_⟩
  rintro rfl
  exact absurd hp (by decide)

theorem witness_NothingWritesTheTables : (∃ t, exec .consume base = .next t) ∧ ∃ t, step lineTurn = .next t := by
  constructor
  · obtain ⟨t, ht, -⟩ := next_of_nextHas (show nextHas (exec .consume base) (fun _ => true) = true by decide)
    exact ⟨t, ht⟩
  · obtain ⟨t, ht, -⟩ := next_of_nextHas (show nextHas (step lineTurn) (fun _ => true) = true by decide)
    exact ⟨t, ht⟩

theorem witness_ModeChangesOnlyAsListed :
    (∃ t, (receivingAt 1 0x00).Inv ∧ exec (.edge true) (receivingAt 1 0x00) = .next t) ∧
    (∃ t, (sendingAt 11 0xED .released).Inv ∧ exec (.edge true) (sendingAt 11 0xED .released) = .next t) ∧
    (∃ t, base.Inv ∧ exec .sendStart base = .next t) ∧
    (∃ t, base.Inv ∧ exec (.init .call) base = .next t) ∧
    ∃ t, base.Inv ∧ Instr.status.edgeKey = none ∧ Instr.status.format ≠ .frameRx ∧
      Instr.status.format ≠ .frameTx ∧ exec .status base = .next t := by
  refine ⟨?_, ?_, ?_, ?_, ?_⟩
  · obtain ⟨t, ht, -⟩ := next_of_nextHas
      (show nextHas (exec (.edge true) (receivingAt 1 0x00)) (fun _ => true) = true by decide)
    exact ⟨t, inv_receiving_first, ht⟩
  · obtain ⟨t, ht, -⟩ := next_of_nextHas
      (show nextHas (exec (.edge true) (sendingAt 11 0xED .released)) (fun _ => true) = true by decide)
    exact ⟨t, inv_sending_last, ht⟩
  · obtain ⟨t, ht, -⟩ := next_of_nextHas (show nextHas (exec .sendStart base) (fun _ => true) = true by decide)
    exact ⟨t, inv_base, ht⟩
  · obtain ⟨t, ht, -⟩ := next_of_nextHas (show nextHas (exec (.init .call) base) (fun _ => true) = true by decide)
    exact ⟨t, inv_base, ht⟩
  · obtain ⟨t, ht, -⟩ := next_of_nextHas (show nextHas (exec .status base) (fun _ => true) = true by decide)
    exact ⟨t, inv_base, by decide, by decide, by decide, ht⟩

theorem witness_InterruptContextRights : agentOf (.enqueue 0x1C) = .line ∧ Instr.enqueue 0x1C ≠ .init .reset ∧
    ∃ t, exec (.enqueue 0x1C) base = .next t := by
  obtain ⟨t, ht, -⟩ := next_of_nextHas (show nextHas (exec (.enqueue 0x1C) base) (fun _ => true) = true by decide)
  exact ⟨by decide, by decide, t, ht⟩

/-- An operation that starts no send, in Idle; and `SEND_START` outside Idle. -/
theorem witness_ForegroundContextRights :
    (agentOf .consume = .foreground ∧ Instr.consume ≠ .init .call ∧ Instr.consume ≠ .sendStart ∧
      ∃ t, exec .consume base = .next t) ∧
    (agentOf .sendStart = .foreground ∧ Instr.sendStart ≠ .init .call ∧ (receivingAt 1 0x00).mode ≠ .idle ∧
      ∃ t, exec .sendStart (receivingAt 1 0x00) = .next t) := by
  obtain ⟨t, ht, -⟩ := next_of_nextHas (show nextHas (exec .consume base) (fun _ => true) = true by decide)
  obtain ⟨u, hu, -⟩ := next_of_nextHas
    (show nextHas (exec .sendStart (receivingAt 1 0x00)) (fun _ => true) = true by decide)
  exact ⟨⟨by decide, by decide, by decide, t, ht⟩, by decide, by decide, by decide, u, hu⟩

theorem witness_EveryNamedOperationIsTotal : base.Inv ∧ (Instr.edge true).format = .op := ⟨inv_base, by decide⟩

theorem witness_ShownResultsStay : ∃ t, exec .status base = .next t := by
  obtain ⟨t, ht, -⟩ := next_of_nextHas (show nextHas (exec .status base) (fun _ => true) = true by decide)
  exact ⟨t, ht⟩

theorem witness_OnlyTheTranslatorWritesFlags : (withFlags 0x0200).flags.bat = true ∧ Instr.status.format ≠ .sc ∧
    (∀ k, Instr.status ≠ .init k) ∧ (∀ sc, Instr.status ≠ .translate sc) ∧ Instr.status ≠ .consume ∧
    Instr.status ≠ .poll ∧ ∃ t, exec .status (withFlags 0x0200) = .next t := by
  obtain ⟨t, ht, -⟩ := next_of_nextHas
    (show nextHas (exec .status (withFlags 0x0200)) (fun _ => true) = true by decide)
  exact ⟨by decide, by decide, nofun, nofun, by decide, by decide, t, ht⟩

/-- The nine clauses of `EdgeRunsTheSelectedRow`, the data positions at both ends. -/
theorem witness_EdgeRunsTheSelectedRow :
    (base.mode = .idle ∧ base.pos.val = 0) ∧
    (∀ k ∈ [(0 : Fin 8), 7], (receivingAt ⟨k.val + 1, by omega⟩ 0x00).mode = .receiving ∧
      (receivingAt ⟨k.val + 1, by omega⟩ 0x00).pos.val = k.val + 1) ∧
    ((receivingAt 9 0x00).mode = .receiving ∧ (receivingAt 9 0x00).pos.val = 9) ∧
    ((receivingAt 10 0x00).mode = .receiving ∧ (receivingAt 10 0x00).pos.val = 10) ∧
    ((sendingAt 0 0x00 .low).mode = .sending ∧ (sendingAt 0 0x00 .low).pos.val = 0) ∧
    (∀ k ∈ [(0 : Fin 8), 7], (sendingAt ⟨k.val + 1, by omega⟩ 0x00 .low).mode = .sending ∧
      (sendingAt ⟨k.val + 1, by omega⟩ 0x00 .low).pos.val = k.val + 1) ∧
    ((sendingAt 9 0x00 .low).mode = .sending ∧ (sendingAt 9 0x00 .low).pos.val = 9) ∧
    ((sendingAt 10 0x00 .low).mode = .sending ∧ (sendingAt 10 0x00 .low).pos.val = 10) ∧
    ((sendingAt 11 0x00 .released).mode = .sending ∧ (sendingAt 11 0x00 .released).pos.val = 11) :=
  ⟨by decide, by decide, by decide, by decide, by decide, by decide, by decide, by decide, by decide⟩

theorem witness_EdgeRowStopsOutsideItsPair : ((Instr.rxStop true).edgeKey = some (.receiving, 10) ∧
    ¬ ((receivingAt 9 0x00).mode = .receiving ∧ (receivingAt 9 0x00).pos = 10)) ∧
    (({ base with pos := 1 } : State).mode = .idle ∧ ({ base with pos := 1 } : State).pos.val ≠ 0) ∧
    ((receivingAt 0 0x00).mode = .receiving ∧ (receivingAt 0 0x00).pos.val = 0) ∧
    ((receivingAt 11 0x00).mode = .receiving ∧ (receivingAt 11 0x00).pos.val = 11) :=
  ⟨by decide, by decide, by decide, by decide⟩

theorem witness_LevelsMatterOnlyAtDataPositions :
    ((receivingAt 1 0x00).mode = .receiving ∧ (receivingAt 1 0x00).pos.val = (0 : Fin 8).val + 1 ∧
      (receivingAt 1 0x00).sr.getLsbD (0 : Fin 8).val = false) ∧
    ((receivingAt 8 0x7F).mode = .receiving ∧ (receivingAt 8 0x7F).pos.val = (7 : Fin 8).val + 1 ∧
      (receivingAt 8 0x7F).sr.getLsbD (7 : Fin 8).val = false) ∧
    ¬ ((receivingAt 9 0x00).mode = .receiving ∧ 1 ≤ (receivingAt 9 0x00).pos.val ∧
      (receivingAt 9 0x00).pos.val ≤ 8) ∧
    ¬ (base.mode = .receiving ∧ 1 ≤ base.pos.val ∧ base.pos.val ≤ 8) := by decide

theorem witness_EdgeIgnoresTheForeground : (edgeRow base.mode base.pos.val true).isSome = true ∧
    (edgeRow (sendingAt 11 0x00 .released).mode (sendingAt 11 0x00 .released).pos.val true).isSome = true := by decide

theorem witness_RxStartBeginsAFrame : base.mode = .idle ∧ base.pos.val = 0 := by decide

theorem witness_RxDataOrsOneBit :
    ((receivingAt 1 0x00).mode = .receiving ∧ (receivingAt 1 0x00).pos.val = (0 : Fin 8).val + 1) ∧
    ((receivingAt 8 0x00).mode = .receiving ∧ (receivingAt 8 0x00).pos.val = (7 : Fin 8).val + 1) := by decide

/-- Position 9; position 10 with one place left in the queue, and with none. -/
theorem witness_RxParityAndStop :
    ((receivingAt 9 0x00).mode = .receiving ∧ (receivingAt 9 0x00).pos.val = 9) ∧
    (let s : State := { receivingAt 10 0x1C with q := [0x1C] };
      s.mode = .receiving ∧ s.pos.val = 10 ∧ s.q.length < s.cfg.n) ∧
    (let s : State := { receivingAt 10 0x1C with q := [0x1C, 0xF0] };
      s.mode = .receiving ∧ s.pos.val = 10 ∧ s.cfg.n ≤ s.q.length) := by decide

theorem witness_RxFrameReceivesItsByte : base.mode = .idle ∧ base.pos.val = 0 := by decide

theorem witness_RxFrameIsElevenEdges : base.Inv ∧ ({ receivingAt 10 0x1C with q := [0x1C, 0xF0] } : State).Inv :=
  ⟨inv_base, inv_receiving_last⟩

theorem witness_TxStartAndData :
    ((sendingAt 0 0xED .low).mode = .sending ∧ (sendingAt 0 0xED .low).pos.val = 0) ∧
    ((sendingAt 1 0xED .low).mode = .sending ∧ (sendingAt 1 0xED .low).pos.val = (0 : Fin 8).val + 1) ∧
    ((sendingAt 8 0xED .low).mode = .sending ∧ (sendingAt 8 0xED .low).pos.val = (7 : Fin 8).val + 1) := by decide

theorem witness_TxParityStopAndAck :
    ((sendingAt 9 0xED .low).mode = .sending ∧ (sendingAt 9 0xED .low).pos.val = 9) ∧
    ((sendingAt 10 0xED .low).mode = .sending ∧ (sendingAt 10 0xED .low).pos.val = 10) ∧
    ((sendingAt 11 0xED .released).mode = .sending ∧ (sendingAt 11 0xED .released).pos.val = 11) := by decide

def pendingIdle : State := { base with cmdp := [0xED, 0x04] }

theorem witness_SendStartBeginsASend : pendingIdle.cmdp = 0xED :: [0x04] ∧ pendingIdle.mode = .idle := by decide

/-- Nothing pending; a byte pending while a frame comes in; another byte pending. -/
theorem witness_SendsWaitForIdle : (base.cmdp = [] ∨ base.mode ≠ .idle) ∧
    (let s : State := { receivingAt 1 0x00 with cmdp := [0xED] };
      s.cmdp = [] ∨ s.mode ≠ .idle) ∧
    (pendingIdle.cmdp = 0xED :: [0x04] ∧ pendingIdle.mode = .idle ∧ (0xED : Byte) ≠ 0x04) := by decide

theorem witness_TxFrameSendsItsByte : pendingIdle.cmdp = 0xED :: [0x04] ∧ pendingIdle.mode = .idle := by decide

theorem witness_TxFrameIsSendStartAndElevenEdges : pendingIdle.Inv ∧ pendingIdle.cmdp = 0xED :: [0x04] ∧
    pendingIdle.mode = .idle ∧ [true, false, true, false, true, false, true, false, true, false].length = 10 :=
  ⟨inv_pending, by decide, by decide, by decide⟩

theorem witness_AnyElevenEdgesEndASend : pendingIdle.cmdp ≠ [] ∧ pendingIdle.mode = .idle ∧
    (List.replicate 11 true).length = 11 ∧ ∃ t, exec .sendStart pendingIdle = .next t := by
  obtain ⟨t, ht, -⟩ := next_of_nextHas (show nextHas (exec .sendStart pendingIdle) (fun _ => true) = true by decide)
  exact ⟨by decide, by decide, by decide, t, ht⟩

/-- One place left, and none. -/
theorem witness_EnqueueAppendsOrDiscards :
    (let s : State := { base with q := [0x1C] };
      s.q.length < s.cfg.n) ∧
    (let s : State := { base with q := [0x1C, 0xF0] };
      s.cfg.n ≤ s.q.length) := by decide

theorem witness_DequeueRemovesTheOldest :
    (let s : State := { base with q := [0x1C] };
      s.q = 0x1C :: []) ∧ base.q = [] := by decide

/-- Bytes that just fit, and a full queue. -/
theorem witness_QueueIsFirstInFirstOut :
    (let s : State := { base with q := [0x1C] };
      s.q.length + [(0xF0 : Byte)].length ≤ s.cfg.n) ∧
    (let s : State := { base with q := [0x1C, 0xF0] };
      s.cfg.n ≤ s.q.length ∧ s.q.length ≤ s.cfg.n) := by decide

/-- A reset ring with a cell of some value, an empty ring and a full one that has wrapped round. -/
theorem witness_RingBufferImplementsTheQueue :
    (1 ≤ 1 ∧ [(0x1C : Byte)].length = 1) ∧
    (Ring.Wf ⟨[0x00, 0x00], 1, 0⟩ base.cfg.n ∧ Ring.contents ⟨[0x00, 0x00], 1, 0⟩ = base.q) ∧
    (let s : State := { base with q := [0x1C, 0xF0] };
      Ring.Wf ⟨[0xF0, 0x1C], 1, 2⟩ s.cfg.n ∧ Ring.contents ⟨[0xF0, 0x1C], 1, 2⟩ = s.q) := by decide

theorem witness_FixedBytesSetTheirFlag : base.cmdp = [] := by decide

theorem witness_ZeroByteReadsAsEmpty : (base.cmdp = [] ∧ base.q = []) ∧
    (let s : State := { base with q := [0x00, 0x1C] };
      s.cmdp = [] ∧ s.q = 0x00 :: [0x1C]) := by decide

theorem witness_BreakRows : (withFlags 0x0018).cmdp = [] ∧ (withFlags 0x0018).flags.brk = true ∧
    (Instr.brkOther 0x75).wf (withFlags 0x0018).cfg = true := by decide

/-- With an entry in `T_EXT` and without one. -/
theorem witness_ExtendedRows : (withFlags 0x0008).cmdp = [] ∧ (withFlags 0x0008).flags.brk = false ∧
    (withFlags 0x0008).flags.ext = true ∧
    ((Instr.extOther 0x75).wf tiny = true ∧ tiny.tExt.read 0x75 = some 0x80) ∧
    ((Instr.extOther 0x12).wf tiny = true ∧ tiny.tExt.read 0x12 = none) := by decide

theorem witness_PlainModifierRows : base.cmdp = [] ∧ base.flags.brk = false ∧ base.flags.ext = false := by decide

/-- Break context; a byte that is no key code, and one that is. -/
theorem witness_TranslateFixedBytesAndBreaks : tiny.Wf ∧ (flagsOf 0x0010).brk = true ∧
    (0x1C : Byte) ∉ [tiny.scLshift, tiny.scRshift, tiny.scCtrl, tiny.scAlt, tiny.scCaps, tiny.scNum, tiny.scScroll,
      0xE0, 0xF0, 0xAA] := ⟨test_tiny_allowed, by decide, by decide⟩

/-- Extended context with a Shift key's code, and plain context with the latch clear, with it set, and with an
ordinary key. -/
theorem witness_TranslateExtendedAndPlainMakes : tiny.Wf ∧
    ((flagsOf 0x0008).brk = false ∧ (flagsOf 0x0008).ext = true ∧
      (0x12 : Byte) ∉ [tiny.scCtrl, tiny.scAlt, 0xE0, 0xF0, 0xAA]) ∧
    ((flagsOf 0x0020).brk = false ∧ (flagsOf 0x0020).ext = false ∧ (flagsOf 0x0020).lockpend = false) ∧
    ((flagsOf 0x0120).brk = false ∧ (flagsOf 0x0120).ext = false ∧ (flagsOf 0x0120).lockpend = true ∧
      (0x1C : Byte) ∉ [tiny.scLshift, tiny.scRshift, tiny.scCtrl, tiny.scAlt, tiny.scCaps, tiny.scNum, tiny.scScroll,
        0xE0, 0xF0, 0xAA]) :=
  ⟨test_tiny_allowed, by decide, by decide, by decide⟩

theorem witness_TranslateTogglesTheLock : base.cfg.Wf ∧ base.flags.brk = false ∧ base.flags.ext = false ∧
    base.flags.lockpend = false := ⟨test_tiny_allowed, by decide, by decide, by decide⟩

theorem witness_LockRowsAskForTheLeds : base.cmdp = [] ∧ base.flags.brk = false ∧ base.flags.ext = false ∧
    base.flags.lockpend = false := by decide

theorem witness_LookupRows : (withFlags 0x0120).cmdp = [] ∧ (withFlags 0x0120).flags.brk = false ∧
    (withFlags 0x0120).flags.ext = false ∧ (withFlags 0x0120).flags.lockpend = true ∧
    (Instr.makeOther 0x1C).wf tiny = true := by decide

/-- The six clauses; the ones over a choice of contexts at each of them. -/
theorem witness_ScRowStopsOutsideItsContext : (base.cmdp = [] ∧ base.flags.brk = false) ∧
    ((withFlags 0x0018).flags.brk = true ∧ base.flags.ext = false) ∧
    ((withFlags 0x0010).flags.brk = true ∧ (withFlags 0x0008).flags.ext = true) ∧
    (withFlags 0x0100).flags.lockpend = true ∧ base.flags.lockpend = false ∧
    (Instr.brkOther 0x00).wf base.cfg = false ∧ (Instr.extOther 0x14).wf base.cfg = false := by decide

theorem witness_ConsumeRunsTheSelectedRow :
    (let s : State := { base with q := [0x00] };
      s.cmdp = [] ∧ s.q = 0x00 :: []) ∧
    (let s : State := { withFlags 0x0010 with q := [0x1C, 0xF0] };
      s.cmdp = [] ∧ s.q = 0x1C :: [0xF0]) := by decide

theorem witness_PollRepeatsConsume : base.cmdp = [] := by decide

/-- Break context with any tables, and extended context with the same `T_EXT`. -/
theorem witness_PrefixedKeysReadOnlyTheExtendedTable :
    (let s : State := { withFlags 0x0010 with q := [0x1C] };
      s.cmdp = [] ∧ s.flags.brk = true ∧ ∃ t, exec .consume s = .next t) ∧
    (let s : State := { withFlags 0x0008 with q := [0x75] };
      s.cmdp = [] ∧ (s.flags.ext = true ∧ tiny.tExt = s.cfg.tExt) ∧ ∃ t, exec .consume s = .next t) := by
  refine ⟨⟨by decide, by decide, ?_⟩, by decide, by decide, ?_⟩
  · obtain ⟨t, ht, -⟩ := next_of_nextHas
      (show nextHas (exec .consume { withFlags 0x0010 with q := [0x1C] }) (fun _ => true) = true by decide)
    exact ⟨t, ht⟩
  · obtain ⟨t, ht, -⟩ := next_of_nextHas
      (show nextHas (exec .consume { withFlags 0x0008 with q := [0x75] }) (fun _ => true) = true by decide)
    exact ⟨t, ht⟩

/-- The letter at each end of the range. -/
theorem witness_LettersFoldByShiftXorCaps :
    (base.cfg.Wf ∧ base.cmdp = [] ∧ base.flags.brk = false ∧ base.flags.ext = false ∧ base.flags.num = false ∧
      (Instr.makeOther 0x1C).wf base.cfg = true ∧ base.cfg.tNormal.read 0x1C = some 0x61 ∧
      0x61 ≤ (0x61 : Byte).toNat ∧ (0x61 : Byte).toNat ≤ 0x7A) ∧
    (let c : Config := { tiny with tNormal := [(0x1A, 0x7A), (0x1C, 0x61)], tShift := [(0x1A, 0x7A), (0x1C, 0x61)] };
      c.Wf ∧ (Instr.makeOther 0x1A).wf c = true ∧ c.tNormal.read 0x1A = some 0x7A ∧
        0x61 ≤ (0x7A : Byte).toNat ∧ (0x7A : Byte).toNat ≤ 0x7A) :=
  ⟨⟨test_tiny_allowed, by decide, by decide, by decide, by decide, by decide, by decide, by decide, by decide⟩,
    by decide, by decide, by decide, by decide, by decide⟩

theorem witness_HeldLockKeyTogglesOnce : tiny.Wf ∧ (flagsOf 0x0020).brk = false ∧ (flagsOf 0x0020).ext = false ∧
    (flagsOf 0x0020).lockpend = false := ⟨test_tiny_allowed, by decide, by decide, by decide⟩

theorem witness_CommandsWaitInCmdp : base.cmdp = [] := by decide

theorem witness_StatusReadsTheFlags : (withFlags 0x03FF).cmdp = [] := by decide

/-- The call with nothing pending; the reset input has no condition. -/
theorem witness_InitRestoresTheResetValues : (sendingAt 5 0xED .low).cmdp = [] := by decide

theorem witness_ForegroundWaitsWhileBytesArePending : pendingIdle.cmdp ≠ [] ∧ Instr.makeCaps.format = .sc ∧
    Instr.poll ∈ [Instr.consume, .poll] := by decide

/-- A send in progress, the LED byte pending, a call of each kind waiting. -/
theorem witness_NoEdgesHangTheForeground :
    (let s : State := { sendingAt 1 0xED .low with
      cmdp := [0x04]
      calls := [⟨.op, 1⟩, ⟨.op, 5⟩, ⟨.op, 6⟩, ⟨.op, 9⟩]
      turns := [.foreground, .line, .foreground] };
      s.legal = true ∧ s.mode = .sending ∧ s.cmdp ≠ [] ∧ s.events = [] ∧
      decode s.cfg ⟨.op, 1⟩ = .ok .sendStart ∧ decode s.cfg ⟨.op, 5⟩ = .ok .consume ∧
      decode s.cfg ⟨.op, 6⟩ = .ok .poll ∧ decode s.cfg ⟨.op, 9⟩ = .ok .status) := by decide

end Sys2Proof.Tests
end

section
/-! The statements of spec/00_scope.md: what has been shown stays shown (R7), and the hold of the foreground (R171).
The record of shown results is newest first, so "only adds to it" is `<:+`, the library's suffix order. -/

namespace Sys2Proof.Machine

variable {s t : State}

/-! ### The record of shown results -/

theorem State.takeEdge_trace_suffix {d : Bool} (h : s.takeEdge d = .next t) : s.trace <:+ t.trace := by
  rcases State.takeEdge_cases h with ⟨-, -, rfl⟩ | ⟨-, i, -, rfl⟩ | ⟨-, -, rfl⟩ | ⟨-, -, rfl⟩ | ⟨-, -, rfl⟩ |
    ⟨-, i, -, rfl⟩ | ⟨-, -, rfl⟩ | ⟨-, -, rfl⟩ | ⟨-, -, rfl⟩ <;> simp

theorem State.takeEdges_trace_suffix {ds : List Bool} (h : s.takeEdges ds = .next t) : s.trace <:+ t.trace := by
  induction ds generalizing s with
  | nil => cases h; exact List.suffix_rfl
  | cons d ds ih =>
    obtain ⟨u, hd, hds⟩ := State.takeEdges_cons h
    exact (State.takeEdge_trace_suffix hd).trans (ih hds)

/-- The start of a send shows four writes of the wires (R107). -/
theorem State.beginSend_trace_suffix (b : Byte) (rest : List Byte) : s.trace <:+ (s.beginSend b rest).trace :=
  ⟨[.clk .released, .data .low, .rts s.cfg.rtsHold, .clk .low], rfl⟩

@[simp] theorem State.finishConsume_trace (o : Translation) : (s.finishConsume o).2.trace = s.trace := by
  rw [State.finishConsume_snd]

/-- A `CONSUME` itself shows nothing: its result is shown by the operation that performs it. -/
@[simp] theorem State.consumeOne_trace : s.consumeOne.2.trace = s.trace := by
  rw [State.consumeOne_eq]
  split <;> simp

/-- No operation takes back what has been shown. -/
theorem exec_trace_suffix {i : Instr} (h : exec i s = .next t) : s.trace <:+ t.trace := by
  rcases exec_cases h with ⟨d, -, he⟩ | ⟨_, _, _, _, -, he⟩ | ⟨-, rfl⟩ | ⟨b, rest, -, -, hsend⟩ | ⟨-, -, hrow⟩ |
    ⟨b, -, rfl⟩ | ⟨-, rfl⟩ | ⟨sc, -, rfl⟩ | ⟨-, hcons⟩ | ⟨-, hhost⟩ | ⟨k, -, -, rfl⟩
  · exact State.takeEdge_trace_suffix he
  · exact State.takeEdges_trace_suffix he
  · exact List.suffix_rfl
  · rcases hsend with ⟨-, rfl⟩ | ⟨ack, -, hf⟩
    · exact State.beginSend_trace_suffix b rest
    · exact (State.beginSend_trace_suffix b rest).trans (State.takeEdges_trace_suffix hf)
  · rcases hrow with rfl | ⟨o, -, rfl⟩ <;> simp
  · simp
  · simp
  · simp
  · rcases hcons with ⟨-, rfl⟩ | ⟨-, ⟨r, rfl⟩ | rfl⟩ <;> simp
  · rcases hhost with ⟨b, -, rfl⟩ | ⟨c, n, l, -, rfl⟩ | ⟨-, rfl⟩ <;> simp
  · exact ⟨[.data .released, .clk .released], rfl⟩

/-- Settles O16: what each operation shows is put before what has been shown, by the cases of `exec_cases`. -/
theorem shownResultsStay : Obligations.ShownResultsStay := by
  intro i s t h
  obtain ⟨new, hnew⟩ := exec_trace_suffix h
  exact ⟨new, hnew.symm⟩

/-! ### The hold of the foreground -/

theorem held_scRow {i : Instr} (hf : i.format = .sc) : held i s = !s.free := by
  cases i <;> cases hf <;> rfl

theorem State.free_of_pending (h : s.cmdp ≠ []) : s.free = false := by
  simpa [State.free] using h

/-- A held operation answers the state in which its call is put back and nothing else is changed (R8, R171). -/
theorem exec_of_held {i : Instr} (h : held i s = true) : exec i s = .next (s.hold i) := by
  cases i
  case sendStart =>
    change execSendStart s = _
    unfold execSendStart
    split
    · rfl
    · exact if_neg (by simpa [held, State.free, *] using h)
  case txFrame b ack =>
    change execTxFrame b ack s = _
    unfold execTxFrame
    split
    · rfl
    · exact if_neg (by simpa [held, State.free, *] using h)
  case init k =>
    cases k with
    | reset => cases h
    | call => exact State.whenFree_held (by simpa [held, State.free] using h) _ _
  case edge | enqueue | dequeue | translate | rxFrame => cases h
  case rxStart | rxData1 | rxData2 | rxData3 | rxData4 | rxData5 | rxData6 | rxData7 | rxData8 => cases h
  case rxParity | rxStop | txStart | txData1 | txData2 | txData3 | txData4 | txData5 => cases h
  case txData6 | txData7 | txData8 | txParity | txStop | txAck => cases h
  -- what is left waits on `whenFree`, the scancode rows through `runScRow`
  all_goals exact State.whenFree_held (by simpa [held, State.free] using h) _ _

theorem State.holds_of_decode {c : Code} {i : Instr} (hd : decode s.cfg c = .ok i) : s.holds c = waits i s := by
  unfold State.holds
  rw [hd]

/-- Settles O59: while bytes are pending the listed calls are held (`exec_of_held`), the line's operations and the
queue's accesses are not, and the foreground's turn passes over all but the sends (`waits_of_pending`). -/
theorem foregroundWaitsWhileBytesArePending : Obligations.ForegroundWaitsWhileBytesArePending := by
  intro s b x y z
  refine ⟨State.foregroundHeld_iff, fun hp => ⟨fun i hi => ?_, fun i hi => ?_, fun c i hd ha hs hf => ?_⟩⟩
  · have hfree : s.free = false := State.free_of_pending hp
    have hheld : held i s = true := by
      rcases hi with hsc | hcall
      · simp [held_scRow hsc, hfree]
      · simp only [List.mem_cons, List.not_mem_nil, or_false] at hcall
        rcases hcall with rfl | rfl | rfl | rfl | rfl | rfl | rfl <;> simp [held, hfree]
    exact ⟨exec_of_held hheld, hheld⟩
  · simp only [List.mem_cons, List.not_mem_nil, or_false] at hi
    rcases hi with rfl | rfl | rfl | rfl | rfl <;> rfl
  · rw [State.holds_of_decode hd]
    exact waits_of_pending hp ha hs hf

end Sys2Proof.Machine
end

section
/-! The statements of spec/10_state.md: the values after reset (R23), the invariant of R14 and its preservation by every
step, and who writes what (R18, R201). An edge, a translation and one `CONSUME` each have their own law, and a statement
over all operations goes through `exec_cases`. -/

namespace Sys2Proof.Machine

variable {s t : State}

/-! ### What an edge leaves -/

/-- The one write of the queue in the interrupt context is the `Enqueue` of a stop bit (R94). -/
theorem State.takeEdge_q {d : Bool} (h : s.takeEdge d = .next t) : t.q = s.q ∨ t.q = (s.enqueue s.sr).2.q := by
  rcases State.takeEdge_cases h with ⟨-, -, rfl⟩ | ⟨-, i, -, rfl⟩ | ⟨-, -, rfl⟩ | ⟨-, -, rfl⟩ | ⟨-, -, rfl⟩ |
    ⟨-, i, -, rfl⟩ | ⟨-, -, rfl⟩ | ⟨-, -, rfl⟩ | ⟨-, -, rfl⟩
  case inr.inr.inr.inl => exact .inr (by simp)
  all_goals exact .inl (by simp)

theorem State.q_isPrefix_enqueue (b : Byte) : s.q <+: (s.enqueue b).2.q := by
  rw [State.enqueue_q]
  split
  · exact List.prefix_append _ _
  · exact List.prefix_rfl

theorem State.enqueue_q_length_le (b : Byte) (h : s.q.length ≤ s.cfg.n) : (s.enqueue b).2.q.length ≤ s.cfg.n := by
  rw [State.enqueue_q]
  split
  · simpa using ‹_›
  · exact h

/-! ### What one `CONSUME` leaves -/

section
variable (s : State) (o : Translation)

@[simp] theorem State.finishConsume_pos : (s.finishConsume o).2.pos = s.pos := by rw [State.finishConsume_snd]
@[simp] theorem State.finishConsume_mode : (s.finishConsume o).2.mode = s.mode := by rw [State.finishConsume_snd]
@[simp] theorem State.finishConsume_clkdrv : (s.finishConsume o).2.clkdrv = s.clkdrv := by rw [State.finishConsume_snd]
@[simp] theorem State.finishConsume_datadrv : (s.finishConsume o).2.datadrv = s.datadrv := by
  rw [State.finishConsume_snd]
@[simp] theorem State.finishConsume_q : (s.finishConsume o).2.q = s.q := by rw [State.finishConsume_snd]
@[simp] theorem State.finishConsume_cfg : (s.finishConsume o).2.cfg = s.cfg := by rw [State.finishConsume_snd]
@[simp] theorem State.finishConsume_flags : (s.finishConsume o).2.flags = o.flags := by rw [State.finishConsume_snd]

theorem State.finishConsume_cmdp :
    (s.finishConsume o).2.cmdp = if o.ledreq then [s.cfg.cmdSetLeds, o.flags.leds] else s.cmdp := by
  rw [State.finishConsume_snd]

@[simp] theorem State.consumeOne_pos : s.consumeOne.2.pos = s.pos := by
  rw [State.consumeOne_eq]; split <;> simp
@[simp] theorem State.consumeOne_mode : s.consumeOne.2.mode = s.mode := by
  rw [State.consumeOne_eq]; split <;> simp
@[simp] theorem State.consumeOne_clkdrv : s.consumeOne.2.clkdrv = s.clkdrv := by
  rw [State.consumeOne_eq]; split <;> simp
@[simp] theorem State.consumeOne_datadrv : s.consumeOne.2.datadrv = s.datadrv := by
  rw [State.consumeOne_eq]; split <;> simp
@[simp] theorem State.consumeOne_q : s.consumeOne.2.q = s.q.tail := by
  rw [State.consumeOne_eq]; split <;> simp
@[simp] theorem State.consumeOne_cfg : s.consumeOne.2.cfg = s.cfg := by
  rw [State.consumeOne_eq]; split <;> simp

end

/-- After a translation `CMDP` holds the LED update or what it held before (R156). -/
theorem State.finishConsume_cmdp_length_le (o : Translation) (h : s.cmdp.length ≤ 2) :
    (s.finishConsume o).2.cmdp.length ≤ 2 := by
  rw [State.finishConsume_cmdp]
  split
  · exact Nat.le_refl 2
  · exact h

theorem State.consumeOne_cmdp_length_le (h : s.cmdp.length ≤ 2) : s.consumeOne.2.cmdp.length ≤ 2 := by
  rw [State.consumeOne_eq]
  split
  · exact h
  · exact State.finishConsume_cmdp_length_le _ h

/-! ### The invariant of R14 -/

/-- The clauses of the invariant that speak of the frame in progress, by mode. -/
def State.LineOk (s : State) : Prop :=
  match s.mode with
  | .idle => s.pos.val = 0 ∧ s.datadrv = .released
  | .receiving => 1 ≤ s.pos.val ∧ s.pos.val ≤ 10 ∧ s.datadrv = .released
  | .sending => 1 ≤ s.pos.val ∧ (s.pos.val = 11 → s.datadrv = .released)

theorem State.inv_iff : s.Inv ↔
    s.LineOk ∧ s.clkdrv = .released ∧ s.q.length ≤ s.cfg.n ∧ s.cmdp.length ≤ 2 ∧ s.cfg.Wf := by
  constructor
  · intro h
    refine ⟨?_, h.clk, h.queue, h.pending, h.cfg⟩
    unfold State.LineOk
    split
    next hm => exact h.idle hm
    next hm => exact h.receiving hm
    next hm => exact ⟨(h.sending hm).1, h.stopped hm⟩
  · rintro ⟨hline, hclk, hqueue, hpending, hcfg⟩
    unfold State.LineOk at hline
    refine ⟨fun hm => ?_, fun hm => ?_, fun hm => ?_, fun hm => ?_, hclk, hqueue, hpending, hcfg⟩ <;>
      rw [hm] at hline
    · exact hline
    · exact hline
    · exact ⟨hline.1, by omega⟩
    · exact hline.2

/-- What neither moves the frame nor touches a wire, enqueues no byte and leaves at most two bytes pending keeps the
invariant. -/
theorem State.Inv.of_same_frame (h : s.Inv) (hp : t.pos = s.pos) (hm : t.mode = s.mode) (hk : t.clkdrv = s.clkdrv)
    (hd : t.datadrv = s.datadrv) (hg : t.cfg = s.cfg) (hq : t.q.length ≤ s.q.length) (hc : t.cmdp.length ≤ 2) :
    t.Inv := by
  obtain ⟨hline, hclk, hqueue, -, hcfg⟩ := State.inv_iff.1 h
  refine State.inv_iff.2 ⟨?_, hk.trans hclk, ?_, hc, hg ▸ hcfg⟩
  · simpa only [State.LineOk, hp, hm, hd] using hline
  · rw [hg]
    exact hq.trans hqueue

/-- An edge goes to the next position of the frame, or ends it (R91 to R104): TX.STOP releases the data wire, so the
wire is released where TX.ACK goes back to Idle. -/
theorem State.LineOk.takeEdge {d : Bool} (hok : s.LineOk) (h : s.takeEdge d = .next t) : t.LineOk := by
  unfold State.LineOk at hok
  rcases State.takeEdge_cases h with ⟨hm, -, rfl⟩ | ⟨hm, i, -, rfl⟩ | ⟨hm, -, rfl⟩ | ⟨hm, -, rfl⟩ | ⟨hm, -, rfl⟩ |
    ⟨hm, i, -, rfl⟩ | ⟨hm, -, rfl⟩ | ⟨hm, -, rfl⟩ | ⟨hm, hp, rfl⟩ <;> simp only [hm] at hok
  · simp [State.LineOk, hok]
  · simp [State.LineOk, hm, hok]
  · simp [State.LineOk, hm, hok]
  · simp [State.LineOk, hok]
  · simp [State.LineOk, hm]
  · simp [State.LineOk, hm]; omega
  · simp [State.LineOk, hm]
  · simp [State.LineOk, hm]
  · simp [State.LineOk, hok.2 hp]

theorem State.Inv.takeEdge {d : Bool} (hi : s.Inv) (h : s.takeEdge d = .next t) : t.Inv := by
  obtain ⟨hline, hclk, hqueue, hpending, hcfg⟩ := State.inv_iff.1 hi
  obtain ⟨-, hcmdp, hclkdrv, hcfg', -⟩ := State.takeEdge_frame h
  refine State.inv_iff.2 ⟨hline.takeEdge h, hclkdrv.trans hclk, ?_, hcmdp ▸ hpending, hcfg' ▸ hcfg⟩
  rw [hcfg']
  rcases State.takeEdge_q h with hq | hq <;> rw [hq]
  · exact hqueue
  · exact State.enqueue_q_length_le _ hqueue

theorem State.Inv.takeEdges {ds : List Bool} (hi : s.Inv) (h : s.takeEdges ds = .next t) : t.Inv := by
  induction ds generalizing s with
  | nil => cases h; exact hi
  | cons d ds ih =>
    obtain ⟨u, hd, hds⟩ := State.takeEdges_cons h
    exact ih (hi.takeEdge hd) hds

/-- A send starts at position 1 with the clock released again and one byte fewer pending (R107). -/
theorem State.Inv.beginSend {b : Byte} {rest : List Byte} (hi : s.Inv) (hc : s.cmdp = b :: rest) :
    (s.beginSend b rest).Inv := by
  have hpending : rest.length ≤ 2 := by
    have := hi.pending
    simp only [hc, List.length_cons] at this
    omega
  exact State.inv_iff.2 ⟨by simp [State.LineOk], rfl, hi.queue, hpending, hi.cfg⟩

theorem State.Inv.enqueue (hi : s.Inv) (b : Byte) : (s.enqueue b).2.Inv := by
  obtain ⟨hline, hclk, hqueue, hpending, hcfg⟩ := State.inv_iff.1 hi
  refine State.inv_iff.2 ⟨by simpa [State.LineOk] using hline, by simpa, ?_, by simpa, by simpa using hcfg⟩
  rw [State.enqueue_cfg]
  exact State.enqueue_q_length_le b hqueue

theorem State.Inv.finishConsume (hi : s.Inv) (o : Translation) : (s.finishConsume o).2.Inv :=
  hi.of_same_frame (by simp) (by simp) (by simp) (by simp) (by simp) (by simp)
    (State.finishConsume_cmdp_length_le o hi.pending)

theorem State.Inv.consumeOne (hi : s.Inv) : s.consumeOne.2.Inv :=
  hi.of_same_frame (by simp) (by simp) (by simp) (by simp) (by simp) (by simp)
    (State.consumeOne_cmdp_length_le hi.pending)

theorem State.Inv.observe (hi : s.Inv) (o : Obs) : (s.observe o).Inv :=
  hi.of_same_frame rfl rfl rfl rfl rfl (Nat.le_refl _) hi.pending

theorem State.Inv.hold (hi : s.Inv) (i : Instr) : (s.hold i).Inv :=
  hi.of_same_frame rfl rfl rfl rfl rfl (Nat.le_refl _) hi.pending

theorem State.Inv.initialise (hi : s.Inv) : s.initialise.Inv :=
  State.inv_iff.2 ⟨by simp [State.LineOk], rfl, Nat.zero_le _, Nat.zero_le _, hi.cfg⟩

/-- The inputs still to come do not count for the invariant. -/
theorem State.Inv.of_inputs (hi : s.Inv) (events calls : List Code) (turns : List Agent) :
    ({ s with events := events, calls := calls, turns := turns } : State).Inv :=
  hi.of_same_frame rfl rfl rfl rfl rfl (Nat.le_refl _) hi.pending

/-- Every operation of the table keeps the invariant, also performed on its own. -/
theorem exec_inv {i : Instr} (hi : s.Inv) (h : exec i s = .next t) : t.Inv := by
  rcases exec_cases h with ⟨d, -, he⟩ | ⟨_, _, _, _, -, he⟩ | ⟨-, rfl⟩ | ⟨b, rest, hc, -, hsend⟩ | ⟨-, -, hrow⟩ |
    ⟨b, -, rfl⟩ | ⟨-, rfl⟩ | ⟨sc, -, rfl⟩ | ⟨-, hcons⟩ | ⟨-, hhost⟩ | ⟨k, -, -, rfl⟩
  · exact hi.takeEdge he
  · exact hi.takeEdges he
  · exact hi.hold i
  · rcases hsend with ⟨-, rfl⟩ | ⟨ack, -, hf⟩
    · exact hi.beginSend hc
    · exact (hi.beginSend hc).takeEdges hf
  · rcases hrow with rfl | ⟨o, -, rfl⟩
    · exact hi.observe _
    · exact (hi.finishConsume o).observe _
  · exact (hi.enqueue b).observe _
  · exact hi.of_same_frame rfl rfl rfl rfl rfl (by simp) hi.pending
  · exact hi.of_same_frame rfl rfl rfl rfl rfl (Nat.le_refl _) hi.pending
  · rcases hcons with ⟨-, rfl⟩ | ⟨-, ⟨r, rfl⟩ | rfl⟩
    · exact hi.consumeOne.observe _
    · exact hi.consumeOne.observe _
    · exact hi.consumeOne.hold _
  · rcases hhost with ⟨b, -, rfl⟩ | ⟨c, n, l, -, rfl⟩ | ⟨-, rfl⟩
    · exact hi.of_same_frame rfl rfl rfl rfl rfl (Nat.le_refl _) (by simp)
    · exact hi.of_same_frame rfl rfl rfl rfl rfl (Nat.le_refl _) (Nat.le_refl _)
    · exact hi.observe _
  · exact hi.initialise

/-- Settles O10: a step takes a turn and an input out of the lists, which do not count, and performs at most one
operation (`exec_inv`). -/
theorem everyStepKeepsTheInvariant : Obligations.EveryStepKeepsTheInvariant := by
  intro s t hi h
  obtain ⟨-, ⟨-, rfl⟩ | ⟨_, rest, -, rfl⟩ | ⟨rest, _, after, _, -, -, -, -, -, hx⟩ |
    ⟨rest, _, others, _, -, -, -, -, -, hx⟩⟩ := step_cases h
  · exact hi
  · exact hi.of_inputs _ _ rest
  · exact exec_inv (hi.of_inputs after _ rest) hx
  · exact exec_inv (hi.of_inputs _ others rest) hx

/-! ### Who writes what -/

/-- What the interrupt context may do (R201, R10): the flags, `CMDP`, the clock latch, the parameters and the inputs
still to come stay, and so does every byte already queued. -/
structure State.InterruptFrame (s t : State) : Prop where
  flags : t.flags = s.flags
  cmdp : t.cmdp = s.cmdp
  clkdrv : t.clkdrv = s.clkdrv
  cfg : t.cfg = s.cfg
  events : t.events = s.events
  calls : t.calls = s.calls
  turns : t.turns = s.turns
  q : s.q <+: t.q

theorem State.InterruptFrame.refl (s : State) : s.InterruptFrame s :=
  ⟨rfl, rfl, rfl, rfl, rfl, rfl, rfl, List.prefix_rfl⟩

theorem State.InterruptFrame.trans {u : State} (h : s.InterruptFrame u) (k : u.InterruptFrame t) : s.InterruptFrame t :=
  ⟨k.flags.trans h.flags, k.cmdp.trans h.cmdp, k.clkdrv.trans h.clkdrv, k.cfg.trans h.cfg, k.events.trans h.events,
    k.calls.trans h.calls, k.turns.trans h.turns, h.q.trans k.q⟩

theorem State.takeEdge_interruptFrame {d : Bool} (h : s.takeEdge d = .next t) : s.InterruptFrame t := by
  obtain ⟨hflags, hcmdp, hclkdrv, hcfg, hevents, hcalls, hturns⟩ := State.takeEdge_frame h
  have hqueue : s.q <+: t.q := by
    rcases State.takeEdge_q h with hq | hq
    · exact hq ▸ List.prefix_rfl
    · exact hq ▸ State.q_isPrefix_enqueue _
  exact ⟨hflags, hcmdp, hclkdrv, hcfg, hevents, hcalls, hturns, hqueue⟩

theorem State.takeEdges_interruptFrame {ds : List Bool} (h : s.takeEdges ds = .next t) : s.InterruptFrame t := by
  induction ds generalizing s with
  | nil => cases h; exact .refl _
  | cons d ds ih =>
    obtain ⟨u, hd, hds⟩ := State.takeEdges_cons h
    exact (State.takeEdge_interruptFrame hd).trans (ih hds)

theorem State.enqueue_interruptFrame (b : Byte) (o : Obs) : s.InterruptFrame ((s.enqueue b).2.observe o) :=
  ⟨by simp, by simp, by simp, by simp, by simp, by simp, by simp, State.q_isPrefix_enqueue b⟩

/-- The operations of the line are the edge, its rows, the receive frame, `ENQUEUE` and the reset input (R75). -/
theorem line_cases {i : Instr} (ha : agentOf i = .line) :
    i.edgeKey.isSome = true ∨ (∃ d, i = .edge d) ∨ (∃ st b p sp, i = .rxFrame st b p sp) ∨ (∃ b, i = .enqueue b) ∨
      i = .init .reset := by
  cases i
  case init k => cases k <;> cases ha; simp
  all_goals cases ha <;> simp [Instr.edgeKey]

theorem exec_interruptFrame {i : Instr} (ha : agentOf i = .line) (hr : i ≠ .init .reset) (h : exec i s = .next t) :
    s.InterruptFrame t := by
  rcases line_cases ha with hk | ⟨d, rfl⟩ | ⟨st, b, p, sp, rfl⟩ | ⟨b, rfl⟩ | rfl
  · obtain ⟨d, hd⟩ := exec_edgeRow hk h
    exact State.takeEdge_interruptFrame hd
  · exact State.takeEdge_interruptFrame h
  · exact State.takeEdges_interruptFrame h
  · cases h
    exact State.enqueue_interruptFrame b _
  · exact absurd rfl hr

/-- Settles O13: an edge writes none of these fields and queues at most the received byte, behind what was there
(`exec_interruptFrame`). -/
theorem interruptContextRights : Obligations.InterruptContextRights := by
  intro i s t ha hr h
  obtain ⟨hflags, hcmdp, hclkdrv, hcfg, hevents, hcalls, hturns, new, hnew⟩ := exec_interruptFrame ha hr h
  exact ⟨hflags, hcmdp, hclkdrv, hcfg, hevents, hcalls, hturns, new, hnew.symm⟩

/-! ### The self-test flag -/

theorem Flags.onBreak_bat {f : Flags} (h : f.bat = true) (k : ScClass) : (f.onBreak k).flags.bat = true := by
  cases k
  case batOk => rfl
  all_goals exact h

theorem Flags.onExtended_bat {f : Flags} (h : f.bat = true) (cfg : Config) (sc : Byte) (k : ScClass) :
    (f.onExtended cfg sc k).flags.bat = true := by
  cases k
  case batOk => rfl
  all_goals exact h

theorem Flags.onPlain_bat {f : Flags} (h : f.bat = true) (cfg : Config) (sc : Byte) (k : ScClass) :
    (f.onPlain cfg sc k).flags.bat = true := by
  cases k
  case batOk => rfl
  case caps | num | scroll => simp only [Flags.onPlain]; split <;> exact h
  all_goals exact h

/-- No translation clears the self-test flag (R133). -/
theorem translateByte_bat {f : Flags} (h : f.bat = true) (cfg : Config) (sc : Byte) :
    (translateByte cfg sc f).flags.bat = true := by
  unfold translateByte
  split
  · exact h
  split
  · exact h
  split
  · rfl
  split
  · exact Flags.onBreak_bat h _
  split
  · exact Flags.onExtended_bat h cfg sc _
  · exact Flags.onPlain_bat h cfg sc _

theorem State.consumeOne_bat (h : s.flags.bat = true) : s.consumeOne.2.flags.bat = true := by
  rw [State.consumeOne_eq]
  split
  · exact h
  · rw [State.finishConsume_flags]
    exact translateByte_bat h _ _

theorem State.takeEdges_flags {ds : List Bool} (h : s.takeEdges ds = .next t) : t.flags = s.flags :=
  (State.takeEdges_interruptFrame h).flags

/-- An operation other than `INIT` leaves the flags, or it is one of the translator's and keeps the self-test flag. -/
theorem exec_flags {i : Instr} (hinit : ∀ k, i ≠ .init k) (h : exec i s = .next t) :
    t.flags = s.flags ∨
      ((i.format = .sc ∨ (∃ sc, i = .translate sc) ∨ i = .consume ∨ i = .poll) ∧
        (s.flags.bat = true → t.flags.bat = true)) := by
  rcases exec_cases h with ⟨d, -, he⟩ | ⟨_, _, _, _, -, he⟩ | ⟨-, rfl⟩ | ⟨b, rest, -, -, hsend⟩ | ⟨hf, -, hrow⟩ |
    ⟨b, -, rfl⟩ | ⟨-, rfl⟩ | ⟨sc, hi, rfl⟩ | ⟨-, hcons⟩ | ⟨-, hhost⟩ | ⟨k, hk, -, -⟩
  · exact .inl (State.takeEdge_interruptFrame he).flags
  · exact .inl (State.takeEdges_flags he)
  · exact .inl rfl
  · rcases hsend with ⟨-, rfl⟩ | ⟨ack, -, hf⟩
    · exact .inl rfl
    · exact .inl (State.takeEdges_flags (s := s.beginSend b rest) hf)
  · rcases hrow with rfl | ⟨o, ho, rfl⟩
    · exact .inl rfl
    · exact .inr ⟨.inl hf, by simpa using ho⟩
  · exact .inl (State.enqueue_flags s b)
  · exact .inl rfl
  · exact .inr ⟨.inr (.inl ⟨sc, hi⟩), fun hb => translateByte_bat hb _ _⟩
  · rcases hcons with ⟨hi, rfl⟩ | ⟨hi, ⟨r, rfl⟩ | rfl⟩
    · exact .inr ⟨.inr (.inr (.inl hi)), State.consumeOne_bat⟩
    · exact .inr ⟨.inr (.inr (.inr hi)), State.consumeOne_bat⟩
    · exact .inr ⟨.inr (.inr (.inr hi)), State.consumeOne_bat⟩
  · rcases hhost with ⟨b, -, rfl⟩ | ⟨c, n, l, -, rfl⟩ | ⟨-, rfl⟩ <;> exact .inl rfl
  · exact absurd hk (hinit k)

/-- Settles O17, by what each operation does with the flags (`exec_flags`). -/
theorem onlyTheTranslatorWritesFlags : Obligations.OnlyTheTranslatorWritesFlags := by
  intro i s t h hinit
  rcases exec_flags hinit h with hflags | ⟨hi, hbat⟩
  · exact ⟨fun hb => hflags ▸ hb, fun _ _ _ _ => hflags⟩
  · refine ⟨hbat, fun hsc htr hcons hpoll => ?_⟩
    rcases hi with hf | ⟨sc, hf⟩ | hf | hf
    · exact absurd hf hsc
    · exact absurd hf (htr sc)
    · exact absurd hf hcons
    · exact absurd hf hpoll

/-! ### Edges with no response -/

theorem State.inPair_other {m : Mode} {p : Fin 12} (h : ¬(s.mode = m ∧ s.pos = p)) (u : State) :
    s.inPair m p u = .refused .notSelected :=
  if_neg (by simpa [State.atKey] using h)

/-- The meaning of an edge row is a response guarded by the row's pair (R73). -/
theorem exec_eq_inPair {i : Instr} {m : Mode} {p : Fin 12} (hk : i.edgeKey = some (m, p)) (s : State) :
    ∃ u, exec i s = s.inPair m p u := by
  cases i <;> cases hk <;> exact ⟨_, rfl⟩

/-- An edge has no response in a pair that R73 does not list. -/
theorem State.takeEdge_unlisted {d : Bool} (h : edgeRow s.mode s.pos.val d = none) :
    s.takeEdge d = .refused .unreachablePair := by
  unfold edgeRow at h
  unfold State.takeEdge
  split at h <;> simp_all

theorem edgeRow_idle_none {p : Nat} (hp : p ≠ 0) (d : Bool) : edgeRow .idle p d = none := by
  unfold edgeRow
  split <;> simp_all

/-- Settles O19: a row is guarded by its pair (`exec_eq_inPair`), and an edge answers in the listed pairs only. -/
theorem edgeRowStopsOutsideItsPair : Obligations.EdgeRowStopsOutsideItsPair := by
  refine ⟨fun i s m p hk hp => ?_, fun s d h => State.takeEdge_unlisted ?_⟩
  · obtain ⟨u, hu⟩ := exec_eq_inPair hk s
    exact hu.trans (State.inPair_other hp u)
  · rcases h with ⟨hm, hp⟩ | ⟨hm, hp | hp⟩
    · rw [hm]
      exact edgeRow_idle_none hp d
    · rw [hm, hp]
      rfl
    · rw [hm, hp]
      rfl

/-! ### The queue -/

/-- Of bytes enqueued in turn, the ones that fit are appended in their order and the rest are lost (R121). -/
theorem State.enqueueAll_eq (s : State) (bs : List Byte) :
    s.enqueueAll bs = { s with q := s.q ++ bs.take (s.cfg.n - s.q.length) } := by
  induction bs generalizing s with
  | nil => simp [State.enqueueAll]
  | cons b bs ih =>
    rw [State.enqueueAll, ih, State.enqueue_snd]
    split
    next hroom =>
      obtain ⟨k, hk⟩ : ∃ k, s.cfg.n - s.q.length = k + 1 := ⟨s.cfg.n - s.q.length - 1, by omega⟩
      have hrest : s.cfg.n - (s.q.length + 1) = k := by omega
      simp [hk, hrest]
    next hfull =>
      have hnone : s.cfg.n - s.q.length = 0 := by omega
      simp [hnone]

theorem State.headByte_cons {b : Byte} {rest : List Byte} (h : s.q = b :: rest) : s.headByte = b := by
  simp [State.headByte, h]

/-- `k` times `Dequeue` returns the `k` oldest bytes in their order (R123). -/
theorem State.dequeueMany_fst {k : Nat} (hk : k ≤ s.q.length) : (s.dequeueMany k).1 = s.q.take k := by
  induction k generalizing s with
  | zero => simp [State.dequeueMany]
  | succ k ih =>
    cases hq : s.q with
    | nil => simp [hq] at hk
    | cons b rest =>
      have hrest : k ≤ s.dequeue.2.q.length := by simpa [hq] using hk
      simp [State.dequeueMany, ih hrest, hq, State.headByte_cons hq]

theorem State.dequeueMany_q (s : State) (k : Nat) : (s.dequeueMany k).2.q = s.q.drop k := by
  induction k generalizing s with
  | zero => rfl
  | succ k ih => simp [State.dequeueMany, ih]

/-- Settles O36: the bytes that fit are appended (`State.enqueueAll_eq`), and `dequeueMany` returns the oldest. -/
theorem queueIsFirstInFirstOut : Obligations.QueueIsFirstInFirstOut := by
  refine ⟨fun s bs hroom => ?_, fun s bs hfull => ?_, fun s bs hq => ?_⟩
  · have hall : (s.enqueueAll bs).q = s.q ++ bs := by
      simp [State.enqueueAll_eq, List.take_of_length_le (show bs.length ≤ s.cfg.n - s.q.length by omega)]
    have hlen : s.q.length + bs.length = (s.enqueueAll bs).q.length := by simp [hall]
    rw [State.dequeueMany_q, State.dequeueMany_fst hlen.le, hlen, List.take_length, List.drop_length]
    exact ⟨hall, rfl⟩
  · simp [State.enqueueAll_eq, Nat.sub_eq_zero_of_le hfull]
  · simp only [State.enqueueAll_eq, List.length_append, List.length_take]
    omega

/-! ### A step with no operation to run -/

/-- The start states that the block accepts are those of R14, whose `POS <= 11` is the type of `pos`. -/
theorem State.legal_iff : s.legal = true ↔
    (s.mode = .idle → s.pos.val = 0 ∧ s.datadrv = .released) ∧
    (s.mode = .receiving → 1 ≤ s.pos.val ∧ s.pos.val ≤ 10 ∧ s.datadrv = .released) ∧
    (s.mode = .sending → 1 ≤ s.pos.val ∧ s.pos.val ≤ 11) ∧
    s.clkdrv = .released ∧ s.q.length ≤ s.cfg.n ∧ s.cmdp.length ≤ 2 := by
  have hpos : s.pos.val ≤ 11 := by omega
  unfold State.legal
  cases s.mode
  · simp [and_assoc]
  · simp [and_assoc]
  · simp [and_assoc, hpos]

theorem step_of_not_legal (h : s.legal = false) : step s = .refused .brokenState :=
  if_neg (by simp [h])

theorem step_of_no_turn (h : s.legal = true) (ht : s.turns = []) : step s = .next s := by
  simp [step, h, ht]

/-- The turn of an agent with nothing it can do passes. -/
theorem step_of_fetch_none {a : Agent} {rest : List Agent} (h : s.legal = true) (ht : s.turns = a :: rest)
    (hf : ({ s with turns := rest } : State).fetch a = none) : step s = .next { s with turns := rest } := by
  simp [step, runTurn, h, ht, hf]

/-- A step of a legal state runs the code that the agent fetches on its turn. -/
theorem step_of_fetch {a : Agent} {rest : List Agent} {c : Code} (h : s.legal = true) (ht : s.turns = a :: rest)
    (hf : ({ s with turns := rest } : State).fetch a = some (c, t)) : step s = runCode a c t := by
  simp [step, runTurn, h, ht, hf]

theorem State.fetch_line_nil (h : s.events = []) : s.fetch .line = none := by
  simp [State.fetch, h]

theorem State.fetch_line_cons {c : Code} {rest : List Code} (h : s.events = c :: rest) :
    s.fetch .line = some (c, { s with events := rest }) := by
  simp [State.fetch, h]

theorem State.fetch_foreground_none (h : ∀ x ∈ s.calls, s.holds x = true) : s.fetch .foreground = none := by
  simp [State.fetch, State.firstEnabled_none.2 h]

/-- The foreground fetches the first of its operations that does not wait. -/
theorem State.fetch_foreground_append {before after : List Code} {c : Code} (h : s.calls = before ++ c :: after)
    (hb : ∀ x ∈ before, s.holds x = true) (hc : s.holds c = false) :
    s.fetch .foreground = some (c, { s with calls := before ++ after }) := by
  simp [State.fetch, h, State.firstEnabled_append hb hc]

theorem runCode_of_error {a : Agent} {c : Code} {e : DecodeError} (h : decode s.cfg c = .error e) :
    runCode a c s = .refused (.illegalCode e) := by
  simp [runCode, h]

/-- A code that is no operation does not wait (log entry 34). -/
theorem State.holds_of_error {c : Code} {e : DecodeError} (h : decode s.cfg c = .error e) : s.holds c = false := by
  simp [State.holds, h]

theorem State.holds_turns (s : State) (turns : List Agent) (c : Code) :
    ({ s with turns := turns } : State).holds c = s.holds c :=
  State.holds_congr { s with turns := turns } s rfl rfl rfl c

/-- Settles O6: with no turn the step stays, with nothing to fetch the turn passes, and what is fetched is refused when
it does not decode. -/
theorem stepWithNoOperationToRun : Obligations.StepWithNoOperationToRun := by
  intro s
  refine ⟨State.legal_iff, step_of_not_legal, step_of_no_turn, fun rest hl ht he => ?_, fun rest hl ht hall => ?_,
    fun rest c after e hl ht he hd => ?_, fun rest before c after e hl ht hcalls hb hd => ?_⟩
  · exact step_of_fetch_none hl ht (State.fetch_line_nil he)
  · have hall' : ∀ x ∈ s.calls, ({ s with turns := rest } : State).holds x = true := fun x hx =>
      (State.holds_turns s rest x).trans (hall x hx)
    exact step_of_fetch_none hl ht (State.fetch_foreground_none hall')
  · have hf : ({ s with turns := rest } : State).fetch .line = some (c, { s with turns := rest, events := after }) :=
      State.fetch_line_cons he
    exact (step_of_fetch hl ht hf).trans (runCode_of_error hd)
  · have hb' : ∀ x ∈ before, ({ s with turns := rest } : State).holds x = true := fun x hx =>
      (State.holds_turns s rest x).trans (hb x hx)
    have hf : ({ s with turns := rest } : State).fetch .foreground =
        some (c, { s with turns := rest, calls := before ++ after }) :=
      State.fetch_foreground_append hcalls hb' (State.holds_of_error hd)
    exact (step_of_fetch hl ht hf).trans (runCode_of_error hd)

/-! ### Reset, `STATUS` and `INIT` -/

/-- Settles O8: Idle at position 0 with nothing queued, over the default record (`Config.default_wf`). -/
theorem resetMeetsTheInvariant : Obligations.ResetMeetsTheInvariant :=
  State.inv_iff.2 ⟨⟨rfl, rfl⟩, rfl, Nat.zero_le _, Nat.zero_le _, Config.default_wf⟩

/-- Settles O9: each field of `State.reset` has its value by definition; the status word is computed. -/
theorem resetHasTheStatedValues : Obligations.ResetHasTheStatedValues :=
  ⟨rfl, rfl, rfl, rfl, rfl, rfl, rfl, by decide, rfl, rfl, rfl⟩

/-- The status word is the ten flags put behind six zeros one bit at a time. -/
theorem Flags.word_eq_concat (f : Flags) : f.word =
    ((((((((((0#6).concat f.bat).concat f.lockpend).concat f.scroll).concat f.num).concat f.caps).concat f.brk).concat
      f.ext).concat f.alt).concat f.ctrl).concat f.shift := rfl

/-- The layout of the status word (R20): the ten flags at bits 0 to 9. -/
theorem Flags.word_getLsbD (f : Flags) :
    f.word.getLsbD 0 = f.shift ∧ f.word.getLsbD 1 = f.ctrl ∧ f.word.getLsbD 2 = f.alt ∧ f.word.getLsbD 3 = f.ext ∧
    f.word.getLsbD 4 = f.brk ∧ f.word.getLsbD 5 = f.caps ∧ f.word.getLsbD 6 = f.num ∧ f.word.getLsbD 7 = f.scroll ∧
    f.word.getLsbD 8 = f.lockpend ∧ f.word.getLsbD 9 = f.bat := by
  simp only [Flags.word_eq_concat, BitVec.getLsbD_concat]
  simp

/-- Above the flags the status word is 0 (R20). -/
theorem Flags.word_getLsbD_high (f : Flags) {k : Nat} (hk : 10 ≤ k) : f.word.getLsbD k = false := by
  obtain ⟨j, rfl⟩ := Nat.exists_eq_add_of_le' hk
  simp [Flags.word_eq_concat]

theorem exec_status (h : s.cmdp = []) : exec .status s = .next (s.observe (.status s.flags.word)) :=
  State.whenFree_free h _ _

/-- Settles O57: the word shown is `Flags.word`, read bit by bit. -/
theorem statusReadsTheFlags : Obligations.StatusReadsTheFlags := by
  intro s h
  obtain ⟨hshift, hctrl, halt, hext, hbrk, hcaps, hnum, hscroll, hlock, hbat⟩ := s.flags.word_getLsbD
  exact ⟨s.flags.word, exec_status h, hshift, hctrl, halt, hext, hbrk, hcaps, hnum, hscroll, hlock, hbat,
    fun _ => s.flags.word_getLsbD_high⟩

/-- `INIT` as one record: the reset values, with what is not the block's own kept (R23, R180). -/
theorem State.initialise_eq (s : State) :
    s.initialise = { State.reset with
      cfg := s.cfg
      events := s.events
      calls := s.calls
      turns := s.turns
      trace := .data .released :: .clk .released :: s.trace } := rfl

/-- Settles O58: both forms of `INIT` answer `State.initialise`, the call where nothing is pending. -/
theorem initRestoresTheResetValues : Obligations.InitRestoresTheResetValues := by
  rintro s t rfl
  rw [← State.initialise_eq]
  exact ⟨rfl, fun h => State.whenFree_free h _ _⟩

end Sys2Proof.Machine
end

section
/-! The statements of spec/20_memory.md: the tables are never written (R53), a step runs the operation it fetches or
refuses it (R48, R75), and the first responses of a send (R100, R101). -/

namespace Sys2Proof.Machine

variable {s t : State}

/-! ### The tables and the key codes -/

theorem State.takeEdges_cfg {ds : List Bool} (h : s.takeEdges ds = .next t) : t.cfg = s.cfg :=
  (State.takeEdges_interruptFrame h).cfg

/-- No operation writes a parameter. -/
theorem exec_cfg {i : Instr} (h : exec i s = .next t) : t.cfg = s.cfg := by
  rcases exec_cases h with ⟨d, -, he⟩ | ⟨_, _, _, _, -, he⟩ | ⟨-, rfl⟩ | ⟨b, rest, -, -, hsend⟩ | ⟨-, -, hrow⟩ |
    ⟨b, -, rfl⟩ | ⟨-, rfl⟩ | ⟨sc, -, rfl⟩ | ⟨-, hcons⟩ | ⟨-, hhost⟩ | ⟨k, -, -, rfl⟩
  · exact (State.takeEdge_interruptFrame he).cfg
  · exact State.takeEdges_cfg he
  · exact State.hold_cfg s i
  · rcases hsend with ⟨-, rfl⟩ | ⟨ack, -, hf⟩
    · exact State.beginSend_cfg s b rest
    · exact State.takeEdges_cfg (s := s.beginSend b rest) hf
  · rcases hrow with rfl | ⟨o, -, rfl⟩ <;> simp
  · simp
  · simp
  · simp
  · rcases hcons with ⟨-, rfl⟩ | ⟨-, ⟨r, rfl⟩ | rfl⟩ <;> simp
  · rcases hhost with ⟨b, -, rfl⟩ | ⟨c, n, l, -, rfl⟩ | ⟨-, rfl⟩ <;> simp
  · exact State.initialise_cfg s

/-- A step takes inputs out of the lists and performs at most one operation, so it writes no parameter. -/
theorem step_cfg (h : step s = .next t) : t.cfg = s.cfg := by
  obtain ⟨-, ⟨-, rfl⟩ | ⟨_, rest, -, rfl⟩ | ⟨rest, _, after, _, -, -, -, -, -, hx⟩ |
    ⟨rest, _, others, _, -, -, -, -, -, hx⟩⟩ := step_cases h
  · rfl
  · rfl
  · exact exec_cfg (s := { s with turns := rest, events := after }) hx
  · exact exec_cfg (s := { s with turns := rest, calls := others }) hx

/-- Settles O11: neither an operation (`exec_cfg`) nor a step (`step_cfg`) writes the record that holds the tables. -/
theorem nothingWritesTheTables : Obligations.NothingWritesTheTables := by
  refine ⟨fun i s t h => exec_cfg h, fun s t h => ?_⟩
  have hcfg : t.cfg = s.cfg := step_cfg h
  simp [hcfg]

/-! ### A step with an operation to run -/

/-- The parts of other operations are the ones named in R75 and R73, and the scancode rows. -/
theorem enclosing_ne_none_iff {i : Instr} : enclosing i ≠ none ↔
    (∃ b, i = .enqueue b) ∨ i = .dequeue ∨ (∃ sc, i = .translate sc) ∨ i.format = .sc ∨ ∃ d, i = .txStart d := by
  constructor
  · intro h
    obtain ⟨j, hj⟩ := Option.ne_none_iff_exists'.1 h
    rcases enclosing_cases hj with ⟨hb, -⟩ | ⟨hd | hsc | hf, -⟩ | ⟨hd, -⟩
    · exact .inl hb
    · exact .inr (.inl hd)
    · exact .inr (.inr (.inl hsc))
    · exact .inr (.inr (.inr (.inl hf)))
    · exact .inr (.inr (.inr (.inr hd)))
  · rintro (⟨b, rfl⟩ | rfl | ⟨sc, rfl⟩ | hf | ⟨d, rfl⟩)
    case inr.inr.inr.inl => cases i <;> cases hf <;> exact nofun
    all_goals exact nofun

/-- A fetched code that decodes is performed, unless the operation is the other agent's or a part of another (R75). -/
theorem runCode_of_ok {a : Agent} {c : Code} {i : Instr} (h : decode s.cfg c = .ok i) :
    runCode a c s =
      if agentOf i ≠ a then .refused .otherAgent
      else if enclosing i ≠ none then .refused .insideOnly
      else exec i s := by
  simp [runCode, h]

/-- On the line's turn a step runs the line's first event. -/
theorem step_line {rest : List Agent} {c : Code} {after : List Code} (h : s.legal = true)
    (ht : s.turns = .line :: rest) (he : s.events = c :: after) :
    step s = runCode .line c { s with turns := rest, events := after } :=
  step_of_fetch h ht (State.fetch_line_cons (s := { s with turns := rest }) he)

/-- On the foreground's turn a step runs the first call that does not wait. -/
theorem step_foreground {rest : List Agent} {before after : List Code} {c : Code} (h : s.legal = true)
    (ht : s.turns = .foreground :: rest) (hcalls : s.calls = before ++ c :: after)
    (hb : ∀ x ∈ before, s.holds x = true) (hc : s.holds c = false) :
    step s = runCode .foreground c { s with turns := rest, calls := before ++ after } := by
  have hb' : ∀ x ∈ before, ({ s with turns := rest } : State).holds x = true := fun x hx =>
    (State.holds_turns s rest x).trans (hb x hx)
  have hc' : ({ s with turns := rest } : State).holds c = false := (State.holds_turns s rest c).trans hc
  exact step_of_fetch h ht (State.fetch_foreground_append hcalls hb' hc')

/-- Settles O5: the agent's turn fetches the code (`step_line`, `step_foreground`), which is performed or refused by
what it decodes to (`runCode_of_ok`). -/
theorem stepRunsTheDecodedOperation : Obligations.StepRunsTheDecodedOperation := by
  intro s rest c i hl hd
  refine ⟨enclosing_ne_none_iff, fun after ht he => ?_, fun before after ht hcalls hb hc => ?_⟩
  · rw [step_line hl ht he]
    exact runCode_of_ok hd
  · rw [step_foreground hl ht hcalls hb hc]
    exact runCode_of_ok hd

/-! ### The first responses of a send -/

/-- The meaning of `TX.DATA.(k+1)` is to send bit `k`, guarded by the pair (Sending, k + 1) (R73, R101). -/
theorem exec_txData (k : Fin 8) (d : Bool) (s : State) :
    exec (Instr.txData k d) s = s.inPair .sending ⟨k.val + 1, by omega⟩ (s.sendBit k) := by
  fin_cases k <;> rfl

/-- Settles O27: in its own pair a row answers its response, `State.passStart` or `State.sendBit`. -/
theorem txStartAndData : Obligations.TxStartAndData := by
  intro s d hm
  refine ⟨fun hp => ?_, fun k hp => ?_⟩
  · exact (State.inPair_next .sending 0 s.passStart).2 ⟨hm, Fin.ext hp, rfl⟩
  · rw [exec_txData]
    exact (State.inPair_next .sending _ (s.sendBit k)).2 ⟨hm, Fin.ext hp, rfl⟩

end Sys2Proof.Machine
end

section
/-! The statements of spec/30_encoding.md about the encodings: decode and encode agree. Outside the SC format a code is
put together again from the fields that `decode` reads; in it, `scRow` yields only well-formed rows. -/

namespace Sys2Proof

/-! ### A word from its fields: adjacent fields put side by side are one field -/

theorem ofBool_getLsbD {n : Nat} (w : BitVec n) (k : Nat) : BitVec.ofBool (w.getLsbD k) = w.extractLsb' k 1 := by
  apply BitVec.eq_of_getLsbD_eq
  intro j hj
  simp [Nat.lt_one_iff.1 hj]

/-- A field inside a field that is 0 is 0. -/
theorem extractLsb'_zero_of_le {w : Word16} {k m j l : Nat} (h : w.extractLsb' k m = 0#m) (hk : k ≤ j)
    (hl : j + l ≤ k + m) : w.extractLsb' j l = 0#l := by
  apply BitVec.eq_of_getLsbD_eq
  intro i hi
  have hbit : (w.extractLsb' k m).getLsbD (j - k + i) = false := by rw [h]; exact BitVec.getLsbD_zero
  have hin : j - k + i < m := by omega
  have hback : k + (j - k + i) = j + i := by omega
  simpa [hi, hin, hback] using hbit

variable {w : Word16}

theorem frameRxBits_of_fields (h : w.extractLsb' 11 5 = 0#5) :
    frameRxBits (w.getLsbD 0) (w.extractLsb' 1 8) (w.getLsbD 9) (w.getLsbD 10) = w := by
  unfold frameRxBits
  rw [← h]
  simp only [ofBool_getLsbD, BitVec.extractLsb'_append_extractLsb'_eq_extractLsb']
  exact BitVec.extractLsb'_eq_self

theorem frameTxBits_of_fields (h : w.extractLsb' 12 4 = 0#4) (hstart : w.getLsbD 0 = false)
    (hparity : w.getLsbD 9 = parity (w.extractLsb' 1 8)) (hstop : w.getLsbD 10 = true) :
    frameTxBits (w.extractLsb' 1 8) (w.getLsbD 11) = w := by
  have h0 : 0#1 = BitVec.ofBool (w.getLsbD 0) := by rw [hstart]; rfl
  have h1 : 1#1 = BitVec.ofBool (w.getLsbD 10) := by rw [hstop]; rfl
  unfold frameTxBits
  rw [← h, ← hparity, h0, h1]
  simp only [ofBool_getLsbD, BitVec.extractLsb'_append_extractLsb'_eq_extractLsb']
  exact BitVec.extractLsb'_eq_self

theorem edgeBits_of_fields {m : Mode} (h : w.extractLsb' 7 9 = 0#9) (hm : m.code = w.extractLsb' 4 2) :
    edgeBits m (w.extractLsb' 0 4) (w.getLsbD 6) = w := by
  unfold edgeBits
  rw [← h, hm]
  simp only [ofBool_getLsbD, BitVec.extractLsb'_append_extractLsb'_eq_extractLsb']
  exact BitVec.extractLsb'_eq_self

/-- The LED byte of the levels at bits `k + 2`, `k + 1` and `k` of a word is the byte there (R71, R79). -/
theorem ledByte_of_fields {k : Nat} (h : w.extractLsb' (k + 3) 5 = 0#5) :
    ledByte (w.getLsbD (k + 2)) (w.getLsbD (k + 1)) (w.getLsbD k) = w.extractLsb' k 8 := by
  unfold ledByte
  rw [← h]
  simp only [ofBool_getLsbD, BitVec.extractLsb'_append_extractLsb'_eq_extractLsb']

theorem cmdBits_of_fields {cfg : Config} (hcmd : w.extractLsb' 8 8 = cfg.cmdSetLeds) (h : w.extractLsb' 3 5 = 0#5) :
    cmdBits cfg (w.getLsbD 2) (w.getLsbD 1) (w.getLsbD 0) = w := by
  unfold cmdBits
  rw [← hcmd, ledByte_of_fields (k := 0) h]
  exact (BitVec.extractLsb'_append_extractLsb'_eq_extractLsb' rfl).trans BitVec.extractLsb'_eq_self

theorem opBits_of_fields {tag : BitVec 4} {x : BitVec 12} (htag : (w.extractLsb' 0 4).toNat = tag.toNat)
    (hx : x = w.extractLsb' 4 12) : opBits tag x = w := by
  unfold opBits
  rw [← BitVec.eq_of_toNat_eq htag, hx]
  exact (BitVec.extractLsb'_append_extractLsb'_eq_extractLsb' rfl).trans BitVec.extractLsb'_eq_self

theorem bitOperand_of_fields (h : w.extractLsb' 5 11 = 0#11) : bitOperand (w.getLsbD 4) = w.extractLsb' 4 12 := by
  unfold bitOperand
  rw [← h, ofBool_getLsbD]
  exact BitVec.extractLsb'_append_extractLsb'_eq_extractLsb' rfl

theorem byteOperand_of_fields (h : w.extractLsb' 12 4 = 0#4) :
    byteOperand (w.extractLsb' 4 8) = w.extractLsb' 4 12 := by
  unfold byteOperand
  rw [← h]
  exact BitVec.extractLsb'_append_extractLsb'_eq_extractLsb' rfl

theorem ledOperand_of_fields (h : w.extractLsb' 7 9 = 0#9) :
    ledOperand (w.getLsbD 6) (w.getLsbD 5) (w.getLsbD 4) = w.extractLsb' 4 12 := by
  unfold ledOperand
  rw [ledByte_of_fields (k := 4) (extractLsb'_zero_of_le h (by decide) (by decide))]
  exact byteOperand_of_fields (extractLsb'_zero_of_le h (by decide) (by decide))

/-! ### Encode after decode, format by format -/

variable {i : Instr}

theorem encode_of_decodeFrameRx (cfg : Config) (h : decodeFrameRx w = .ok i) : encode cfg i = ⟨.frameRx, w⟩ := by
  unfold decodeFrameRx at h
  split at h <;> cases h
  exact congrArg (Code.mk .frameRx) (frameRxBits_of_fields ‹_›)

theorem encode_of_decodeFrameTx (cfg : Config) (h : decodeFrameTx w = .ok i) : encode cfg i = ⟨.frameTx, w⟩ := by
  unfold decodeFrameTx at h
  split at h
  next hhigh =>
    split at h <;> cases h
    next hframe =>
      obtain ⟨hstart, hparity, hstop⟩ := hframe
      exact congrArg (Code.mk .frameTx) (frameTxBits_of_fields hhigh hstart hparity hstop)
  next => cases h

/-- The mode that the key's code stands for has that code (R79). -/
theorem code_of_keyMode {k : BitVec 2} {m : Mode} (h : keyMode k = some m) : m.code = k := by
  unfold keyMode at h
  split at h <;> cases h <;> exact BitVec.eq_of_toNat_eq (Eq.symm ‹_›)

/-- The row that answers an edge in a pair is encoded by the key of the pair (R73, R79). -/
theorem encode_edgeRow (cfg : Config) {m : Mode} {p : Nat} {d : Bool} (h : edgeRow m p d = some i) :
    encode cfg i = ⟨.edge, edgeBits m (BitVec.ofNat 4 p) d⟩ := by
  unfold edgeRow at h
  split at h <;> cases h <;> rfl

theorem encode_of_decodeEdge (cfg : Config) (h : decodeEdge w = .ok i) : encode cfg i = ⟨.edge, w⟩ := by
  unfold decodeEdge at h
  split at h
  next hhigh =>
    split at h
    next => cases h
    next m hm =>
      split at h <;> cases h
      next hrow =>
        rw [encode_edgeRow cfg hrow, BitVec.ofNat_toNat, BitVec.setWidth_eq]
        exact congrArg (Code.mk .edge) (edgeBits_of_fields hhigh (code_of_keyMode hm))
  next => cases h

theorem encode_of_decodeCmd {cfg : Config} (h : decodeCmd cfg w = .ok i) : encode cfg i = ⟨.cmd, w⟩ := by
  unfold decodeCmd at h
  split at h <;> cases h
  next hled =>
    obtain ⟨hcmd, hlow⟩ := hled
    exact congrArg (Code.mk .cmd) (cmdBits_of_fields hcmd hlow)

section
variable {cfg : Config} {tag : BitVec 4}

theorem encode_of_opNone {j : Instr} (htag : (w.extractLsb' 0 4).toNat = tag.toNat)
    (he : encode cfg j = ⟨.op, opBits tag 0⟩) (h : opNone w j = .ok i) : encode cfg i = ⟨.op, w⟩ := by
  unfold opNone at h
  split at h <;> cases h
  exact he.trans (congrArg (Code.mk .op) (opBits_of_fields htag (Eq.symm ‹_›)))

theorem encode_of_opBit {f : Bool → Instr} (htag : (w.extractLsb' 0 4).toNat = tag.toNat)
    (he : ∀ x, encode cfg (f x) = ⟨.op, opBits tag (bitOperand x)⟩) (h : opBit w f = .ok i) :
    encode cfg i = ⟨.op, w⟩ := by
  unfold opBit at h
  split at h <;> cases h
  exact (he _).trans (congrArg (Code.mk .op) (opBits_of_fields htag (bitOperand_of_fields ‹_›)))

theorem encode_of_opByte {f : Byte → Instr} (htag : (w.extractLsb' 0 4).toNat = tag.toNat)
    (he : ∀ b, encode cfg (f b) = ⟨.op, opBits tag (byteOperand b)⟩) (h : opByte w f = .ok i) :
    encode cfg i = ⟨.op, w⟩ := by
  unfold opByte at h
  split at h <;> cases h
  exact (he _).trans (congrArg (Code.mk .op) (opBits_of_fields htag (byteOperand_of_fields ‹_›)))

theorem encode_of_opLeds {f : Bool → Bool → Bool → Instr} (htag : (w.extractLsb' 0 4).toNat = tag.toNat)
    (he : ∀ c n l, encode cfg (f c n l) = ⟨.op, opBits tag (ledOperand c n l)⟩) (h : opLeds w f = .ok i) :
    encode cfg i = ⟨.op, w⟩ := by
  unfold opLeds at h
  split at h <;> cases h
  exact (he _ _ _).trans (congrArg (Code.mk .op) (opBits_of_fields htag (ledOperand_of_fields ‹_›)))

end

theorem encode_of_decodeOp (cfg : Config) (h : decodeOp w = .ok i) : encode cfg i = ⟨.op, w⟩ := by
  have hinit : ∀ call : Bool, encode cfg (.init (if call then .call else .reset)) =
      ⟨.op, opBits 10 (bitOperand call)⟩ := fun call => by cases call <;> rfl
  unfold decodeOp at h
  split at h
  next htag => exact encode_of_opBit (tag := 0) htag (fun _ => rfl) h
  next htag => exact encode_of_opNone (tag := 1) htag rfl h
  next htag => exact encode_of_opByte (tag := 2) htag (fun _ => rfl) h
  next htag => exact encode_of_opNone (tag := 3) htag rfl h
  next htag => exact encode_of_opByte (tag := 4) htag (fun _ => rfl) h
  next htag => exact encode_of_opNone (tag := 5) htag rfl h
  next htag => exact encode_of_opNone (tag := 6) htag rfl h
  next htag => exact encode_of_opByte (tag := 7) htag (fun _ => rfl) h
  next htag => exact encode_of_opLeds (tag := 8) htag (fun _ _ _ => rfl) h
  next htag => exact encode_of_opNone (tag := 9) htag rfl h
  next htag => exact encode_of_opBit (tag := 10) htag hinit h
  next => cases h

/-- Settles O3: outside the SC format the operation's code is made of the fields that were read. -/
theorem codesOutsideScAreUnique : Obligations.CodesOutsideScAreUnique := by
  rintro cfg ⟨fmt, w⟩ i hsc h
  cases fmt with
  | frameRx => exact encode_of_decodeFrameRx cfg h
  | frameTx => exact encode_of_decodeFrameTx cfg h
  | edge => exact encode_of_decodeEdge cfg h
  | sc => exact absurd rfl hsc
  | cmd => exact encode_of_decodeCmd h
  | op => exact encode_of_decodeOp cfg h

/-! ### What is decoded is well formed -/

theorem encode_fmt (cfg : Config) (i : Instr) : (encode cfg i).fmt = i.format := by
  cases i
  case init kind => cases kind <;> rfl
  all_goals rfl

/-- The three `OTHER` rows are the only ones with a side condition (R65, R68). -/
theorem wf_of_not_sc (cfg : Config) (h : i.format ≠ .sc) : i.wf cfg = true := by
  cases i
  case brkOther | extOther | makeOther => exact absurd rfl h
  all_goals rfl

/-- The row selected for a byte is a well-formed scancode row: an `OTHER` row only for a byte of a class it stands for,
and never for `0x00` (R65, R70). -/
theorem scRow_wf (cfg : Config) (sc : Byte) (brk ext lockpend : Bool) :
    (scRow cfg sc brk ext lockpend).wf cfg = true ∧ (scRow cfg sc brk ext lockpend).format = .sc := by
  unfold scRow
  split
  · exact ⟨rfl, rfl⟩
  next h0 =>
    split
    case h_1 | h_2 | h_3 => exact ⟨rfl, rfl⟩
    all_goals
      next hk => split_ifs <;> simp [Instr.wf, Instr.format, ScClass.extLooksUp, h0, hk]

theorem decodeSc_ok {cfg : Config} (h : decodeSc cfg w = .ok i) :
    ∃ sc brk ext lockpend, i = scRow cfg sc brk ext lockpend := by
  unfold decodeSc at h
  split at h <;> cases h
  exact ⟨_, _, _, _, rfl⟩

/-- Settles O4: a scancode code decodes to the row selected (`scRow_wf`); in the other formats the code is the
operation's own, and so is the format. -/
theorem decodingYieldsWellFormedRows : Obligations.DecodingYieldsWellFormedRows := by
  rintro cfg ⟨fmt, w⟩ i h
  by_cases hsc : fmt = .sc
  · subst hsc
    obtain ⟨sc, brk, ext, lockpend, rfl⟩ := decodeSc_ok h
    exact scRow_wf cfg sc brk ext lockpend
  · have hfmt : i.format = fmt := by rw [← encode_fmt cfg, codesOutsideScAreUnique cfg ⟨fmt, w⟩ i hsc h]
    exact ⟨wf_of_not_sc cfg (hfmt ▸ hsc), hfmt⟩

/-! ### Decode after encode -/

/-- Settles O2: each word is a closed term, and decoding it is a computation. -/
theorem writtenOutWordsDecodeToTheirRows : Obligations.WrittenOutWordsDecodeToTheirRows := by
  refine ⟨?_, ?_, ?_, ?_, ?_, ?_, ?_⟩ <;> decide

/-- Settles O1: the round trip of each constructor, from the family `Laws.DecodeEncode`. -/
theorem everyOperationDecodesFromItsCode : Obligations.EveryOperationDecodesFromItsCode := by
  intro i
  cases i
  case rxFrame st b p sp => exact Laws.DecodeEncode.rxFrame st b p sp
  case txFrame b ack => exact Laws.DecodeEncode.txFrame b ack
  case rxStart d => exact Laws.DecodeEncode.rxStart d
  case rxData1 d => exact Laws.DecodeEncode.rxData1 d
  case rxData2 d => exact Laws.DecodeEncode.rxData2 d
  case rxData3 d => exact Laws.DecodeEncode.rxData3 d
  case rxData4 d => exact Laws.DecodeEncode.rxData4 d
  case rxData5 d => exact Laws.DecodeEncode.rxData5 d
  case rxData6 d => exact Laws.DecodeEncode.rxData6 d
  case rxData7 d => exact Laws.DecodeEncode.rxData7 d
  case rxData8 d => exact Laws.DecodeEncode.rxData8 d
  case rxParity d => exact Laws.DecodeEncode.rxParity d
  case rxStop d => exact Laws.DecodeEncode.rxStop d
  case txStart d => exact Laws.DecodeEncode.txStart d
  case txData1 d => exact Laws.DecodeEncode.txData1 d
  case txData2 d => exact Laws.DecodeEncode.txData2 d
  case txData3 d => exact Laws.DecodeEncode.txData3 d
  case txData4 d => exact Laws.DecodeEncode.txData4 d
  case txData5 d => exact Laws.DecodeEncode.txData5 d
  case txData6 d => exact Laws.DecodeEncode.txData6 d
  case txData7 d => exact Laws.DecodeEncode.txData7 d
  case txData8 d => exact Laws.DecodeEncode.txData8 d
  case txParity d => exact Laws.DecodeEncode.txParity d
  case txStop d => exact Laws.DecodeEncode.txStop d
  case txAck d => exact Laws.DecodeEncode.txAck d
  case scEmpty => exact Laws.DecodeEncode.scEmpty
  case extPrefix => exact Laws.DecodeEncode.extPrefix
  case breakPrefix => exact Laws.DecodeEncode.breakPrefix
  case batOk => exact Laws.DecodeEncode.batOk
  case brkLshift => exact Laws.DecodeEncode.brkLshift
  case brkRshift => exact Laws.DecodeEncode.brkRshift
  case brkCtrl => exact Laws.DecodeEncode.brkCtrl
  case brkAlt => exact Laws.DecodeEncode.brkAlt
  case brkCaps => exact Laws.DecodeEncode.brkCaps
  case brkNum => exact Laws.DecodeEncode.brkNum
  case brkScroll => exact Laws.DecodeEncode.brkScroll
  case brkOther sc => exact Laws.DecodeEncode.brkOther sc
  case extCtrl => exact Laws.DecodeEncode.extCtrl
  case extAlt => exact Laws.DecodeEncode.extAlt
  case extOther sc => exact Laws.DecodeEncode.extOther sc
  case makeLshift => exact Laws.DecodeEncode.makeLshift
  case makeRshift => exact Laws.DecodeEncode.makeRshift
  case makeCtrl => exact Laws.DecodeEncode.makeCtrl
  case makeAlt => exact Laws.DecodeEncode.makeAlt
  case makeCaps => exact Laws.DecodeEncode.makeCaps
  case makeNum => exact Laws.DecodeEncode.makeNum
  case makeScroll => exact Laws.DecodeEncode.makeScroll
  case makeCapsLatched => exact Laws.DecodeEncode.makeCapsLatched
  case makeNumLatched => exact Laws.DecodeEncode.makeNumLatched
  case makeScrollLatched => exact Laws.DecodeEncode.makeScrollLatched
  case makeOther sc => exact Laws.DecodeEncode.makeOther sc
  case ledCommand c n l => exact Laws.DecodeEncode.ledCommand c n l
  case edge d => exact Laws.DecodeEncode.edge d
  case sendStart => exact Laws.DecodeEncode.sendStart
  case enqueue b => exact Laws.DecodeEncode.enqueue b
  case dequeue => exact Laws.DecodeEncode.dequeue
  case translate sc => exact Laws.DecodeEncode.translate sc
  case consume => exact Laws.DecodeEncode.consume
  case poll => exact Laws.DecodeEncode.poll
  case sendCommand b => exact Laws.DecodeEncode.sendCommand b
  case setLeds c n l => exact Laws.DecodeEncode.setLeds c n l
  case status => exact Laws.DecodeEncode.status
  case init kind => exact Laws.DecodeEncode.init kind

end Sys2Proof
end

section
/-! The statements of spec/30_encoding.md about the rows: the word placed for the next step (R75), the row that an edge
and a byte select (R70, R73, R79), the whole frames as scheduled edges (R77), and the rows of R63 and R71. -/

namespace Sys2Proof.Machine

variable {s t : State}

/-! ### The word placed for the next step -/

/-- A code placed for its operation's agent is performed by the next step, if it is scheduled itself and does not
wait. -/
theorem step_place {c : Code} {i : Instr} (hl : s.legal = true) (hd : decode s.cfg c = .ok i)
    (he : enclosing i = none) (hh : s.holds c = false) : step (s.place (agentOf i) c) = exec i s := by
  have hrun : runCode (agentOf i) c s = exec i s := by simp [runCode_of_ok hd, he]
  rw [← hrun]
  cases agentOf i with
  | line => exact step_line (s := s.place .line c) hl rfl rfl
  | foreground =>
    exact step_foreground (s := s.place .foreground c) (before := []) hl rfl rfl (by simp)
      ((State.holds_congr (s.place .foreground c) s rfl rfl rfl c).trans hh)

/-- The code of an operation that is scheduled itself runs next. -/
theorem step_load_own {c : Code} {i : Instr} (hd : decode s.cfg c = .ok i) (hl : (s.selecting i).legal = true)
    (he : enclosing i = none) (hh : (s.selecting i).holds c = false) :
    step (s.load c) = exec i (s.selecting i) := by
  obtain ⟨hcfg, -⟩ := State.selecting_frame s i
  rw [State.load_own hd he]
  exact step_place hl (by rw [hcfg, hd]) he hh

/-- For the code of a part, the operation that performs the part runs next. -/
theorem step_load_part {c : Code} {i j : Instr} (hd : decode s.cfg c = .ok i) (hl : (s.selecting i).legal = true)
    (he : enclosing i = some j) (hw : waits j (s.selecting i) = false) :
    step (s.load c) = exec j (s.selecting i) := by
  have hj : decode (s.selecting i).cfg (encode s.cfg j) = .ok j := decode_enclosing he _ _
  rw [State.load_part hd he]
  exact step_place hl hj (enclosing_scheduled he) ((State.holds_of_decode hj).trans hw)

theorem enclosing_of_consume_part {i : Instr} (h : i = .dequeue ∨ (∃ sc, i = .translate sc) ∨ i.format = .sc) :
    enclosing i = some .consume := by
  rcases h with rfl | ⟨sc, rfl⟩ | hf
  · rfl
  · rfl
  · cases i <;> cases hf <;> rfl

/-- Selecting a part of `CONSUME` gives it a byte or a context, and nothing to send. -/
theorem State.selecting_cmdp {i : Instr} (h : enclosing i = some .consume) : (s.selecting i).cmdp = s.cmdp := by
  cases i <;> cases h <;> rfl

theorem waits_consume (h : s.cmdp = []) : waits .consume s = false := by
  simp [waits, held, State.free, h]

/-- Where `TX.START` is selected, `SEND_START` is enabled (R107). -/
theorem waits_sendStart_selecting (s : State) (d : Bool) : waits .sendStart (s.selecting (.txStart d)) = false := by
  have hpending : (s.selecting (.txStart d)).cmdp ≠ [] := by
    change (if s.cmdp = [] then [0x00] else s.cmdp) ≠ []
    split
    · exact List.cons_ne_nil _ _
    · assumption
  have hidle : (s.selecting (.txStart d)).mode = .idle := rfl
  simp [waits, held, State.free_of_pending hpending, hidle]

/-- Settles O7: a word that is scheduled itself is placed as it is (`step_load_own`), and for a part what performs it
is placed (`step_load_part`), which does not wait in the selecting state. -/
theorem placedWordRunsNext : Obligations.PlacedWordRunsNext := by
  intro s nbits w i hd hl
  refine ⟨step_load_own hd hl, ?_, fun hpart hc => ?_, ?_⟩
  · rintro b rfl
    exact step_load_part hd hl rfl rfl
  · have he := enclosing_of_consume_part hpart
    exact step_load_part hd hl he (waits_consume ((State.selecting_cmdp he).trans hc))
  · rintro d rfl
    exact step_load_part hd hl rfl (waits_sendStart_selecting s d)

/-! ### The row that an edge selects -/

/-- `EDGE(d)` is the row that R73 lists for the pair (MODE, POS). -/
theorem exec_edge_eq_row {i : Instr} {d : Bool} (h : edgeRow s.mode s.pos.val d = some i) :
    exec (.edge d) s = exec i s := by
  unfold edgeRow at h
  split at h <;> cases h
  all_goals
    next hm hp =>
      refine Eq.trans ?_ ((State.inPair_next _ _ _).2 ⟨hm, Fin.ext hp, rfl⟩).symm
      change s.takeEdge d = _
      simp only [State.takeEdge, hm, hp]

theorem edgeRow_rxData (k : Fin 8) (d : Bool) : edgeRow .receiving (k.val + 1) d = some (Instr.rxData k d) := by
  fin_cases k <;> rfl

theorem edgeRow_txData (k : Fin 8) (d : Bool) : edgeRow .sending (k.val + 1) d = some (Instr.txData k d) := by
  fin_cases k <;> rfl

/-- Settles O18: the nine lines of R73 are what `edgeRow` lists (`exec_edge_eq_row`). -/
theorem edgeRunsTheSelectedRow : Obligations.EdgeRunsTheSelectedRow := by
  intro s d
  refine ⟨fun hm hp => ?_, fun k hm hp => ?_, fun hm hp => ?_, fun hm hp => ?_, fun hm hp => ?_, fun k hm hp => ?_,
    fun hm hp => ?_, fun hm hp => ?_, fun hm hp => ?_⟩ <;> apply exec_edge_eq_row <;> rw [hm, hp]
  case refine_2 => exact edgeRow_rxData k d
  case refine_6 => exact edgeRow_txData k d
  all_goals rfl

/-! ### An edge and the foreground -/

section
variable (d : Bool)

theorem State.takeEdge_idle (hm : s.mode = .idle) (hp : s.pos.val = 0) : s.takeEdge d = .next s.startReceive := by
  simp only [State.takeEdge, hm, hp]

theorem State.takeEdge_receiving_data (hm : s.mode = .receiving) {k : Fin 8} (hp : s.pos.val = k.val + 1) :
    s.takeEdge d = .next (s.receiveBit k d) := by
  fin_cases k <;> simp only [State.takeEdge, hm, hp] <;> rfl

theorem State.takeEdge_receiving_parity (hm : s.mode = .receiving) (hp : s.pos.val = 9) :
    s.takeEdge d = .next s.receiveParity := by
  simp only [State.takeEdge, hm, hp]

theorem State.takeEdge_receiving_stop (hm : s.mode = .receiving) (hp : s.pos.val = 10) :
    s.takeEdge d = .next s.endReceive := by
  simp only [State.takeEdge, hm, hp]

theorem State.takeEdge_sending_start (hm : s.mode = .sending) (hp : s.pos.val = 0) :
    s.takeEdge d = .next s.passStart := by
  simp only [State.takeEdge, hm, hp]

theorem State.takeEdge_sending_data (hm : s.mode = .sending) {k : Fin 8} (hp : s.pos.val = k.val + 1) :
    s.takeEdge d = .next (s.sendBit k) := by
  fin_cases k <;> simp only [State.takeEdge, hm, hp] <;> rfl

theorem State.takeEdge_sending_parity (hm : s.mode = .sending) (hp : s.pos.val = 9) :
    s.takeEdge d = .next s.sendParity := by
  simp only [State.takeEdge, hm, hp]

theorem State.takeEdge_sending_stop (hm : s.mode = .sending) (hp : s.pos.val = 10) :
    s.takeEdge d = .next s.sendStop := by
  simp only [State.takeEdge, hm, hp]

theorem State.takeEdge_sending_ack (hm : s.mode = .sending) (hp : s.pos.val = 11) :
    s.takeEdge d = .next s.endSend := by
  simp only [State.takeEdge, hm, hp]

end

/-- The state with what the foreground owns and the inputs still to come replaced (R201). -/
def State.withForeground (s : State) (f : Flags) (c : List Byte) (calls events : List Code) (turns : List Agent) :
    State :=
  { s with flags := f, cmdp := c, calls := calls, events := events, turns := turns }

/-- The response to an edge carries what the foreground owns over unchanged. -/
theorem State.takeEdge_withForeground {d : Bool} (h : s.takeEdge d = .next t) (f : Flags) (c : List Byte)
    (calls events : List Code) (turns : List Agent) :
    (s.withForeground f c calls events turns).takeEdge d = .next (t.withForeground f c calls events turns) := by
  rcases State.takeEdge_cases h with ⟨hm, hp, rfl⟩ | ⟨hm, k, hp, rfl⟩ | ⟨hm, hp, rfl⟩ | ⟨hm, hp, rfl⟩ | ⟨hm, hp, rfl⟩ |
    ⟨hm, k, hp, rfl⟩ | ⟨hm, hp, rfl⟩ | ⟨hm, hp, rfl⟩ | ⟨hm, hp, rfl⟩
  case inr.inr.inr.inl =>
    have hcomm : (s.withForeground f c calls events turns).endReceive =
        s.endReceive.withForeground f c calls events turns := by
      rw [State.endReceive_eq, State.endReceive_eq]
      rfl
    rw [← hcomm]
    exact State.takeEdge_receiving_stop (s := s.withForeground f c calls events turns) d hm hp
  · exact State.takeEdge_idle d hm hp
  · exact State.takeEdge_receiving_data (s := s.withForeground f c calls events turns) d hm hp
  · exact State.takeEdge_receiving_parity d hm hp
  · exact State.takeEdge_sending_start d hm hp
  · exact State.takeEdge_sending_data (s := s.withForeground f c calls events turns) d hm hp
  · exact State.takeEdge_sending_parity d hm hp
  · exact State.takeEdge_sending_stop d hm hp
  · exact State.takeEdge_sending_ack d hm hp

/-- Settles O21: an edge answers in every listed pair (`State.takeEdge_total`), and the answer commutes with a change of
what the foreground owns. -/
theorem edgeIgnoresTheForeground : Obligations.EdgeIgnoresTheForeground := by
  intro s d hrow
  obtain ⟨t, ht⟩ := State.takeEdge_total d hrow
  exact ⟨t, ht, State.takeEdge_withForeground ht⟩

/-! ### Whole frames as scheduled edges -/

theorem State.Inv.edgeRow_isSome (hi : s.Inv) (d : Bool) : (edgeRow s.mode s.pos.val d).isSome = true := by
  cases hm : s.mode with
  | idle =>
    rw [(hi.idle hm).1]
    rfl
  | receiving =>
    obtain ⟨hlow, hhigh, -⟩ := hi.receiving hm
    generalize s.pos.val = p at hlow hhigh
    interval_cases p <;> rfl
  | sending =>
    obtain ⟨hlow, hhigh⟩ := hi.sending hm
    generalize s.pos.val = p at hlow hhigh
    interval_cases p <;> rfl

theorem State.Inv.queued (hi : s.Inv) (script : List Instr) : (s.queued script).Inv := hi.of_inputs _ _ _

/-- A response to an edge leaves a queued script as it is. -/
theorem State.takeEdge_queued {d : Bool} (h : s.takeEdge d = .next t) (script : List Instr) :
    (s.queued script).takeEdge d = .next (t.queued script) := by
  obtain ⟨hflags, hcmdp, -, hcfg, hevents, hcalls, hturns⟩ := State.takeEdge_frame h
  have hkept : t.queued script = t.withForeground s.flags s.cmdp (s.queued script).calls (s.queued script).events
      (s.queued script).turns := by
    unfold State.queued State.withForeground
    rw [← hflags, ← hcmdp, ← hcfg, ← hevents, ← hcalls, ← hturns]
  rw [hkept]
  exact State.takeEdge_withForeground h _ _ _ _ _

/-- The step of a script that begins with an edge takes the edge. -/
theorem step_queued_edge (hi : s.Inv) (d : Bool) (script : List Instr) :
    step (s.queued (.edge d :: script)) = (s.queued script).takeEdge d := by
  rw [step_line (hi.queued _).legal rfl rfl]
  exact (runCode_of_ok (s := s.queued script) (Laws.DecodeEncode.edge d s.cfg hi.cfg rfl)).trans rfl

theorem State.takeEdges_of_next {d : Bool} (h : s.takeEdge d = .next t) (ds : List Bool) :
    s.takeEdges (d :: ds) = t.takeEdges ds := by
  simp only [State.takeEdges, h]

/-- Scheduled edges lead where the same edges lead with nothing between them (R77). -/
theorem run_queued_edges (hi : s.Inv) (ds : List Bool) :
    Host.Core.run Sys2Proof.core ds.length (s.queued (ds.map Instr.edge)) = s.takeEdges ds := by
  induction ds generalizing s with
  | nil => rfl
  | cons d ds ih =>
    obtain ⟨t, ht⟩ := State.takeEdge_total d (hi.edgeRow_isSome d)
    have hstep : step (s.queued ((d :: ds).map Instr.edge)) = .next (t.queued (ds.map Instr.edge)) :=
      (step_queued_edge hi d _).trans (State.takeEdge_queued ht _)
    have htail : Host.Core.run Sys2Proof.core ds.length (t.queued (ds.map Instr.edge)) = t.takeEdges ds :=
      ih (hi.takeEdge ht)
    exact (run_succ hstep ds.length).trans (htail.trans (State.takeEdges_of_next ht ds).symm)

/-- Settles O26: `RXFRAME` is its eleven edges with nothing between them, and so is the schedule. -/
theorem rxFrameIsElevenEdges : Obligations.RxFrameIsElevenEdges := by
  intro s start parityBit stop b hi
  exact run_queued_edges hi (start :: (wireBits b ++ [parityBit, stop]))

/-- In a send the level of an edge is ignored (U5, R100 to R104). -/
theorem State.takeEdge_sending_level (hm : s.mode = .sending) (d e : Bool) : s.takeEdge d = s.takeEdge e := by
  unfold State.takeEdge
  split <;> simp_all

/-- In a send an edge goes to the next position, or ends the send at position 11. -/
theorem State.takeEdge_sending_pos {d : Bool} (hm : s.mode = .sending) (h : s.takeEdge d = .next t) :
    (t.mode = .sending ∧ t.pos.val = s.pos.val + 1) ∨ s.pos.val = 11 := by
  rcases State.takeEdge_cases h with ⟨hm', -, -⟩ | ⟨hm', -⟩ | ⟨hm', -⟩ | ⟨hm', -⟩ | ⟨-, hp, rfl⟩ |
    ⟨-, k, hp, rfl⟩ | ⟨-, hp, rfl⟩ | ⟨-, hp, rfl⟩ | ⟨-, hp, rfl⟩
  case inr.inr.inr.inr.inr.inr.inr.inr => exact .inr hp
  case inl | inr.inl | inr.inr.inl | inr.inr.inr.inl => rw [hm] at hm'; cases hm'
  all_goals exact .inl ⟨hm, by simp [hp]⟩

/-- What is left of a send does not depend on the levels of its edges (R105). -/
theorem State.takeEdges_sending_levels {ds es : List Bool} (hm : s.mode = .sending) (hlen : ds.length = es.length)
    (hp : s.pos.val + ds.length ≤ 12) : s.takeEdges ds = s.takeEdges es := by
  induction ds generalizing s es with
  | nil => rw [List.eq_nil_of_length_eq_zero hlen.symm]
  | cons d ds ih =>
    obtain ⟨e, es, rfl⟩ := List.exists_cons_of_length_eq_add_one hlen.symm
    simp only [List.length_cons, Nat.add_right_cancel_iff] at hlen hp
    rw [State.takeEdges, State.takeEdges, State.takeEdge_sending_level hm d e]
    cases he : s.takeEdge e with
    | fault r => rfl
    | refused r => rfl
    | next t =>
      change t.takeEdges ds = t.takeEdges es
      rcases State.takeEdge_sending_pos hm he with ⟨hm', hp'⟩ | hp'
      · exact ih hm' hlen (by omega)
      · rw [List.eq_nil_of_length_eq_zero (show ds.length = 0 by omega),
          List.eq_nil_of_length_eq_zero (show es.length = 0 by omega)]

theorem exec_sendStart {b : Byte} {rest : List Byte} (hc : s.cmdp = b :: rest) (hm : s.mode = .idle) :
    exec .sendStart s = .next (s.beginSend b rest) := by
  change execSendStart s = _
  simp [execSendStart, hc, hm]

theorem exec_txFrame {b : Byte} {rest : List Byte} (hc : s.cmdp = b :: rest) (hm : s.mode = .idle) (ack : Bool) :
    exec (.txFrame b ack) s = s.sendFrame b rest ack := by
  change execTxFrame b ack s = _
  simp [execTxFrame, hc, hm]

/-- The step of a script of `SEND_START` and edges starts the send, if a byte is pending in Idle. -/
theorem step_queued_sendStart (hi : s.Inv) {b : Byte} {rest : List Byte} (hc : s.cmdp = b :: rest)
    (hm : s.mode = .idle) (ds : List Bool) :
    step (s.queued (.sendStart :: ds.map Instr.edge)) = .next ((s.beginSend b rest).queued (ds.map Instr.edge)) := by
  have hd : decode s.cfg (encode s.cfg .sendStart) = .ok .sendStart := Laws.DecodeEncode.sendStart s.cfg hi.cfg rfl
  have hw : (s.queued (.sendStart :: ds.map Instr.edge)).holds (encode s.cfg .sendStart) = false := by
    refine (State.holds_of_decode (s := s.queued _) hd).trans ?_
    simp [waits, held, State.free, State.queued, hc, hm]
  rw [step_foreground (before := []) (hi.queued _).legal rfl rfl (by simp) hw]
  exact (runCode_of_ok (s := s.queued (ds.map Instr.edge)) hd).trans
    (exec_sendStart (s := s.queued (ds.map Instr.edge)) hc hm)

/-- Settles O32: `SEND_START` leaves a send at position 1, whose eleven edges are taken whatever their levels. -/
theorem txFrameIsSendStartAndElevenEdges : Obligations.TxFrameIsSendStartAndElevenEdges := by
  intro s b rest levels ack hi hc hm hlen
  have hlength : (levels ++ [ack]).length = 11 := by simp [hlen]
  have hedges : Host.Core.run Sys2Proof.core 11 ((s.beginSend b rest).queued (txClock levels ack)) =
      (s.beginSend b rest).takeEdges (levels ++ [ack]) := by
    rw [← hlength]
    exact run_queued_edges (hi.beginSend hc) (levels ++ [ack])
  have hlevels : (s.beginSend b rest).takeEdges (levels ++ [ack]) = s.sendFrame b rest ack :=
    State.takeEdges_sending_levels rfl hlength (by rw [hlength, State.beginSend_pos]; decide)
  exact (run_succ (step_queued_sendStart hi hc hm (levels ++ [ack])) 11).trans
    (hedges.trans (hlevels.trans (exec_txFrame hc hm ack).symm))

/-! ### The row that a byte selects -/

/-- A lock key's class has one code (R65). -/
theorem classify_lock {cfg : Config} {sc : Byte} :
    (classify cfg sc = .caps → sc = cfg.scCaps) ∧ (classify cfg sc = .num → sc = cfg.scNum) ∧
      (classify cfg sc = .scroll → sc = cfg.scScroll) := by
  unfold classify
  split_ifs <;> simp_all

/-- The fixed bytes are classes of their own and act alike in every context, so a translation is chosen by the context
and the class (R130). -/
theorem translateByte_eq (cfg : Config) (sc : Byte) (f : Flags) :
    translateByte cfg sc f =
      if f.brk then f.onBreak (classify cfg sc)
      else if f.ext then f.onExtended cfg sc (classify cfg sc)
      else f.onPlain cfg sc (classify cfg sc) := by
  have hfixed : ∀ o : Translation, o = if f.brk then o else if f.ext then o else o := by simp
  by_cases hE : sc = 0xE0#8
  · subst hE
    exact hfixed f.onExtPrefix
  by_cases hF : sc = 0xF0#8
  · subst hF
    exact hfixed f.onBreakPrefix
  by_cases hA : sc = 0xAA#8
  · subst hA
    exact hfixed f.onBat
  unfold translateByte
  rw [if_neg hE, if_neg hF, if_neg hA]

theorem State.runScRow_eq_true (i : Instr) {sel : Bool} (hs : sel = true) (o : Translation) :
    s.runScRow i sel o = s.runScRow i true o := by
  rw [hs]

/-- The two rows of a lock key are chosen by the latch, and each is guarded by it (R147 to R150). -/
theorem exec_lock (hp : s.inPlain = true) {make latched : Instr} {o p : Translation}
    (hm : exec make s = s.runScRow make (s.inPlain && !s.flags.lockpend) o)
    (hl : exec latched s = s.runScRow latched (s.inPlain && s.flags.lockpend) p) :
    exec (if s.flags.lockpend then latched else make) s =
      s.runScRow (if s.flags.lockpend then latched else make) true (if s.flags.lockpend then p else o) := by
  split
  next hlatch => exact hl.trans (State.runScRow_eq_true _ (by simp [hp, hlatch]) _)
  next hlatch => exact hm.trans (State.runScRow_eq_true _ (by simp [hp, hlatch]) _)

section
variable {sc : Byte} (h0 : sc ≠ 0#8)
include h0

/-- In break context the selected row translates by its class (R134 to R139). -/
theorem exec_scRow_break (hb : s.inBreak = true) (ext lockpend : Bool) :
    exec (scRow s.cfg sc true ext lockpend) s =
      s.runScRow (scRow s.cfg sc true ext lockpend) true (s.flags.onBreak (classify s.cfg sc)) := by
  have hwf : (scRow s.cfg sc true ext lockpend).wf s.cfg = true := (scRow_wf s.cfg sc true ext lockpend).1
  revert hwf
  unfold scRow
  rw [if_neg h0]
  cases classify s.cfg sc
  case extPrefix | breakPrefix | batOk => exact fun _ => rfl
  case shift =>
    intro
    change exec (if sc = s.cfg.scLshift then .brkLshift else .brkRshift) s =
      s.runScRow (if sc = s.cfg.scLshift then .brkLshift else .brkRshift) true s.flags.onBreakShift
    split <;> exact State.runScRow_eq_true _ hb _
  case other => exact fun hwf => State.runScRow_eq_true _ (Bool.and_eq_true_iff.2 ⟨hb, hwf⟩) _
  all_goals exact fun _ => State.runScRow_eq_true _ hb _

/-- In extended context the selected row translates by its class (R140 to R143). -/
theorem exec_scRow_extended (he : s.inExtended = true) (lockpend : Bool) :
    exec (scRow s.cfg sc false true lockpend) s =
      s.runScRow (scRow s.cfg sc false true lockpend) true (s.flags.onExtended s.cfg sc (classify s.cfg sc)) := by
  have hwf : (scRow s.cfg sc false true lockpend).wf s.cfg = true := (scRow_wf s.cfg sc false true lockpend).1
  revert hwf
  unfold scRow
  rw [if_neg h0]
  cases classify s.cfg sc
  case extPrefix | breakPrefix | batOk => exact fun _ => rfl
  case ctrl | alt => exact fun _ => State.runScRow_eq_true _ he _
  all_goals exact fun hwf => State.runScRow_eq_true _ (Bool.and_eq_true_iff.2 ⟨he, hwf⟩) _

/-- In plain context the selected row translates by its class, a lock key by the latch as well (R144 to R151). -/
theorem exec_scRow_plain (hp : s.inPlain = true) :
    exec (scRow s.cfg sc false false s.flags.lockpend) s =
      s.runScRow (scRow s.cfg sc false false s.flags.lockpend) true
        (s.flags.onPlain s.cfg sc (classify s.cfg sc)) := by
  have hwf : (scRow s.cfg sc false false s.flags.lockpend).wf s.cfg = true :=
    (scRow_wf s.cfg sc false false s.flags.lockpend).1
  obtain ⟨hcaps, hnum, hscroll⟩ := classify_lock (cfg := s.cfg) (sc := sc)
  revert hwf hcaps hnum hscroll
  unfold scRow
  rw [if_neg h0]
  cases classify s.cfg sc <;> intro hwf hcaps hnum hscroll
  case extPrefix | breakPrefix | batOk => rfl
  case shift =>
    change exec (if sc = s.cfg.scLshift then .makeLshift else .makeRshift) s =
      s.runScRow (if sc = s.cfg.scLshift then .makeLshift else .makeRshift) true s.flags.onMakeShift
    split <;> exact State.runScRow_eq_true _ hp _
  case ctrl | alt => exact State.runScRow_eq_true _ hp _
  case other => exact State.runScRow_eq_true _ (Bool.and_eq_true_iff.2 ⟨hp, hwf⟩) _
  case caps =>
    obtain rfl := hcaps rfl
    exact exec_lock hp rfl rfl
  case num =>
    obtain rfl := hnum rfl
    exact exec_lock hp rfl rfl
  case scroll =>
    obtain rfl := hscroll rfl
    exact exec_lock hp rfl rfl

end

/-- The row that a byte other than `0x00` selects is in its own context, and its translation is that of the byte
(R70, R79, R130). -/
theorem exec_scRow_eq {sc : Byte} (h0 : sc ≠ 0#8) (s : State) :
    exec (scRow s.cfg sc s.flags.brk s.flags.ext s.flags.lockpend) s =
      s.runScRow (scRow s.cfg sc s.flags.brk s.flags.ext s.flags.lockpend) true (translateByte s.cfg sc s.flags) := by
  rw [translateByte_eq]
  cases hb : s.flags.brk with
  | true => exact exec_scRow_break h0 hb _ _
  | false =>
    cases he : s.flags.ext with
    | true => exact exec_scRow_extended h0 (by simp [State.inExtended, hb, he]) _
    | false => exact exec_scRow_plain h0 (by simp [State.inPlain, hb, he])

/-! ### Rows outside their context -/

/-- Settles O48: each row is guarded by its context, its latch state and its class (`State.runScRow_other`). -/
theorem scRowStopsOutsideItsContext : Obligations.ScRowStopsOutsideItsContext := by
  intro s sc hc
  refine ⟨fun hb i hi => ?_, fun hx i hi => ?_, fun hx i hi => ?_, fun hl i hi => ?_, fun hl i hi => ?_,
    fun i hi hw => ?_⟩ <;> simp only [List.mem_cons, List.not_mem_nil, or_false] at hi
  · have hsel : s.inBreak = false := hb
    rcases hi with rfl | rfl | rfl | rfl | rfl | rfl | rfl | rfl <;>
      exact State.runScRow_other hc _ (by simp [hsel]) _
  · have hsel : s.inExtended = false := by rcases hx with h | h <;> simp [State.inExtended, h]
    rcases hi with rfl | rfl | rfl <;> exact State.runScRow_other hc _ (by simp [hsel]) _
  · have hsel : s.inPlain = false := by rcases hx with h | h <;> simp [State.inPlain, h]
    rcases hi with rfl | rfl | rfl | rfl | rfl | rfl | rfl | rfl | rfl | rfl | rfl <;>
      exact State.runScRow_other hc _ (by simp [hsel]) _
  · rcases hi with rfl | rfl | rfl <;> exact State.runScRow_other hc _ (by simp [hl]) _
  · rcases hi with rfl | rfl | rfl <;> exact State.runScRow_other hc _ (by simp [hl]) _
  · rcases hi with rfl | rfl | rfl <;> exact State.runScRow_other hc _ (by simp [hw]) _

/-! ### `CONSUME` -/

theorem State.dequeue_cons {b : Byte} {rest : List Byte} (h : s.q = b :: rest) :
    s.dequeue.2 = { s with q := rest } := by
  simp [State.dequeue, h]

theorem exec_consume (h : s.cmdp = []) :
    exec .consume s = .next (s.consumeOne.2.observe (.consume s.consumeOne.1)) :=
  State.whenFree_free h _ _

theorem scRow_zero (cfg : Config) (brk ext lockpend : Bool) : scRow cfg 0#8 brk ext lockpend = .scEmpty := rfl

/-- Settles O49: `CONSUME` of the byte at the head is the empty row for `0x00`, and otherwise the translation of the
byte, which the selected row runs too (`exec_scRow_eq`). -/
theorem consumeRunsTheSelectedRow : Obligations.ConsumeRunsTheSelectedRow := by
  intro s sc rest hc hq
  have hone : s.consumeOne = if sc = 0#8 then (.empty, { s with q := rest })
      else State.finishConsume { s with q := rest } (translateByte s.cfg sc s.flags) := by
    rw [State.consumeOne_eq, State.headByte_cons hq, State.dequeue_cons hq]
    rfl
  refine ⟨?_, _, exec_consume hc, by simp [hq]⟩
  rw [exec_consume hc, hone]
  by_cases h0 : sc = 0#8
  · subst h0
    exact (State.whenFree_free (s := { s with q := rest }) hc .scEmpty _).symm
  · rw [if_neg h0]
    exact ((exec_scRow_eq h0 { s with q := rest }).trans
      (State.runScRow_selected (s := { s with q := rest }) hc _ rfl _)).symm

/-! ### The LED update -/

/-- The places of the LEDs in the LED byte: CapsLock 4, NumLock 2, ScrollLock 1 (R71, D21). -/
theorem ledByte_eq_sum (caps num scroll : Bool) :
    ledByte caps num scroll =
      BitVec.ofNat 8 ((if caps then 4 else 0) + (if num then 2 else 0) + (if scroll then 1 else 0)) := by
  cases caps <;> cases num <;> cases scroll <;> rfl

/-- A selected row that asks for the LED update leaves it in `CMDP`, with the flags after the toggle (R155, R156). -/
theorem State.runScRow_ledreq (h : s.cmdp = []) (i : Instr) {sel : Bool} (hs : sel = true) (g : Flags) :
    s.runScRow i sel ⟨g, none, true⟩ =
      .next { s with
        flags := g
        cmdp := [s.cfg.cmdSetLeds, ledByte g.caps g.num g.scroll]
        trace := .consume .nochar :: s.trace } :=
  State.runScRow_selected h i hs _

/-- Settles O46: each lock row is selected here and asks for the LED update (`State.runScRow_ledreq`). -/
theorem lockRowsAskForTheLeds : Obligations.LockRowsAskForTheLeds := by
  rintro s hc hb he hl _ rfl
  have hsel : (s.inPlain && !s.flags.lockpend) = true := by simp [State.inPlain, hb, he, hl]
  simp only [← ledByte_eq_sum]
  exact ⟨State.runScRow_ledreq hc .makeCaps hsel _, State.runScRow_ledreq hc .makeNum hsel _,
    State.runScRow_ledreq hc .makeScroll hsel _⟩

/-- Settles O56: with nothing pending each call is enabled (`State.whenFree_free`) and writes `CMDP` only. -/
theorem commandsWaitInCmdp : Obligations.CommandsWaitInCmdp := by
  rintro s b caps num scroll hc _ rfl
  rw [← ledByte_eq_sum]
  exact ⟨State.whenFree_free hc _ _, State.whenFree_free hc _ _, State.whenFree_free hc _ _⟩

/-! ### The parity bit -/

theorem bodd_length_filter_cons {α : Type} (p : α → Bool) (a : α) (l : List α) :
    ((a :: l).filter p).length.bodd = (p a ^^ (l.filter p).length.bodd) := by
  cases h : p a <;> simp [h]

/-- The xor of the bits of a byte is 1 exactly if the number of 1 bits is odd (R8). -/
theorem xor8_eq_bodd (b : Byte) : xor8 b = ((List.range 8).filter (fun k => b.getLsbD k)).length.bodd := by
  have hrange : List.range 8 = [0, 1, 2, 3, 4, 5, 6, 7] := rfl
  rw [hrange]
  simp only [bodd_length_filter_cons, List.filter_nil, List.length_nil, Nat.bodd_zero, Bool.xor_false, xor8,
    Bool.xor_assoc]

/-- Odd parity (R63): the parity bit is 1 exactly if the byte has an even number of 1 bits. -/
theorem driveOf_parity (b : Byte) : driveOf (parity b) =
    if ((List.range 8).filter (fun k => b.getLsbD k)).length % 2 = 0 then .released else .low := by
  unfold driveOf parity
  rw [xor8_eq_bodd, Nat.mod_two_of_bodd]
  cases Nat.bodd _ <;> rfl

/-- Settles O28: each row answers its response in its own pair (`State.inPair_next`); the parity level is that of the
number of 1 bits (`driveOf_parity`). -/
theorem txParityStopAndAck : Obligations.TxParityStopAndAck := by
  intro s d hm
  refine ⟨fun hp ones hones => ?_, fun hp => ?_, fun hp => ?_⟩
  · rw [hones, ← driveOf_parity]
    exact (State.inPair_next .sending 9 s.sendParity).2 ⟨hm, Fin.ext hp, rfl⟩
  · exact (State.inPair_next .sending 10 s.sendStop).2 ⟨hm, Fin.ext hp, rfl⟩
  · exact (State.inPair_next .sending 11 s.endSend).2 ⟨hm, Fin.ext hp, rfl⟩

end Sys2Proof.Machine
end

section
/-! The statements of spec/40_line_engine.md: the responses to an edge in a receive frame and the whole receive frame
(R91 to R95), the start of a send and the whole send frame (R100 to R107), the transitions of MODE (R111), and what the
foreground does to the frame (R201). The eight data edges of a frame are an induction over the position. -/

namespace Sys2Proof.Machine

variable {s t : State}

/-! ### The receive responses -/

/-- Settles O22: the row answers `State.startReceive` in its own pair. -/
theorem rxStartBeginsAFrame : Obligations.RxStartBeginsAFrame := by
  intro s d hm hp
  exact (State.inPair_next .idle 0 s.startReceive).2 ⟨hm, Fin.ext hp, rfl⟩

theorem orBit_getLsbD (b : Byte) (k : Fin 8) (d : Bool) (j : Nat) :
    (orBit b k.val d).getLsbD j = (b.getLsbD j || (decide (j = k.val) && d)) := by
  have hbit : (zext8 d <<< k.val).getLsbD j = (decide (j = k.val) && d) := by
    simp only [zext8, BitVec.getLsbD_shiftLeft, BitVec.getLsbD_setWidth, BitVec.getLsbD_ofBool]
    rcases Nat.lt_trichotomy j k.val with hlt | rfl | hgt
    · simp [hlt, hlt.ne]
    · simp [k.isLt]
    · simp [hgt.ne', Nat.sub_eq_zero_iff_le, hgt]
  rw [orBit, BitVec.getLsbD_or, hbit]

/-- The meaning of `RX.DATA.(k+1)` is to receive bit `k`, guarded by the pair (Receiving, k + 1) (R73, R92). -/
theorem exec_rxData (k : Fin 8) (d : Bool) (s : State) :
    exec (Instr.rxData k d) s = s.inPair .receiving ⟨k.val + 1, by omega⟩ (s.receiveBit k d) := by
  fin_cases k <;> rfl

/-- Settles O23: in its own pair the row answers `State.receiveBit`, which changes bit `k` only (`orBit_getLsbD`). -/
theorem rxDataOrsOneBit : Obligations.RxDataOrsOneBit := by
  intro s k d hm hp
  refine ⟨s.receiveBit k d, ?_, rfl, rfl, orBit_getLsbD s.sr k d⟩
  rw [exec_rxData]
  exact (State.inPair_next .receiving _ (s.receiveBit k d)).2 ⟨hm, Fin.ext hp, rfl⟩

/-- Settles O24: each row answers its response in its own pair; the stop bit's is `State.endReceive_eq`. -/
theorem rxParityAndStop : Obligations.RxParityAndStop := by
  intro s d hm
  have hstop (hp : s.pos.val = 10) : exec (.rxStop d) s = .next s.endReceive :=
    (State.inPair_next .receiving 10 s.endReceive).2 ⟨hm, Fin.ext hp, rfl⟩
  refine ⟨fun hp => ?_, fun hp hroom => ?_, fun hp hfull => ?_⟩
  · exact (State.inPair_next .receiving 9 s.receiveParity).2 ⟨hm, Fin.ext hp, rfl⟩
  · rw [hstop hp, State.endReceive_eq, if_pos hroom]
  · rw [hstop hp, State.endReceive_eq, if_neg hfull.not_gt]

/-! ### The level of an edge -/

/-- Outside the data positions of a receive frame both levels of an edge have the same response (U5). -/
theorem State.takeEdge_level (h : ¬(s.mode = .receiving ∧ 1 ≤ s.pos.val ∧ s.pos.val ≤ 8)) (d e : Bool) :
    s.takeEdge d = s.takeEdge e := by
  cases hm : s.mode with
  | idle =>
    by_cases hp : s.pos.val = 0
    · rw [State.takeEdge_idle d hm hp, State.takeEdge_idle e hm hp]
    · have hnone (x : Bool) : edgeRow s.mode s.pos.val x = none := hm ▸ edgeRow_idle_none hp x
      rw [State.takeEdge_unlisted (hnone d), State.takeEdge_unlisted (hnone e)]
  | receiving =>
    have hout : ¬(1 ≤ s.pos.val ∧ s.pos.val ≤ 8) := fun hp => h ⟨hm, hp⟩
    have hpos : s.pos.val = 9 ∨ s.pos.val = 10 ∨ s.pos.val = 0 ∨ s.pos.val = 11 := by omega
    rcases hpos with hp | hp | hp
    · rw [State.takeEdge_receiving_parity d hm hp, State.takeEdge_receiving_parity e hm hp]
    · rw [State.takeEdge_receiving_stop d hm hp, State.takeEdge_receiving_stop e hm hp]
    · have hnone (x : Bool) : edgeRow s.mode s.pos.val x = none := by
        rcases hp with hp | hp <;> rw [hm, hp] <;> rfl
      rw [State.takeEdge_unlisted (hnone d), State.takeEdge_unlisted (hnone e)]
  | sending => exact State.takeEdge_sending_level hm d e

/-- Settles O20: at a data position the level is OR'd into a clear bit (`orBit_getLsbD`), and elsewhere it is ignored
(`State.takeEdge_level`). -/
theorem levelsMatterOnlyAtDataPositions : Obligations.LevelsMatterOnlyAtDataPositions := by
  intro s
  refine ⟨fun k hm hp hclear => ?_, fun h => State.takeEdge_level h true false⟩
  refine ⟨s.receiveBit k true, s.receiveBit k false, State.takeEdge_receiving_data true hm hp,
    State.takeEdge_receiving_data false hm hp, ?_, ?_⟩
  · rw [State.receiveBit_sr, orBit_getLsbD]
    simp
  · rw [State.receiveBit_sr, orBit_getLsbD, hclear]
    simp

/-! ### The eight data edges -/

theorem State.takeEdges_append_of_next {ds : List Bool} (h : s.takeEdges ds = .next t) (es : List Bool) :
    s.takeEdges (ds ++ es) = t.takeEdges es := by
  simp only [State.takeEdges_append, h]

theorem wireBits_drop (b : Byte) (k : Fin 8) :
    (wireBits b).drop k.val = b.getLsbD k.val :: (wireBits b).drop (k.val + 1) := by
  fin_cases k <;> rfl

/-- The data edges from position `k + 1` on complete a byte whose bits below `k` are in `SR` already (R92). -/
theorem State.takeEdges_receiveData {k : Nat} (hk : k ≤ 8) (b : Byte) (hm : s.mode = .receiving)
    (hp : s.pos.val = k + 1) (hsr : ∀ j, s.sr.getLsbD j = (decide (j < k) && b.getLsbD j)) :
    s.takeEdges ((wireBits b).drop k) = .next { s with sr := b, pos := 9 } := by
  induction hk using Nat.decreasingInduction generalizing s with
  | self =>
    have hbyte : s.sr = b := BitVec.eq_of_getLsbD_eq fun j hj => by rw [hsr, decide_eq_true hj, Bool.true_and]
    have hpos : s.pos = 9 := Fin.ext hp
    rw [← hbyte, ← hpos]
    rfl
  | of_succ k hk ih =>
    have hedge := State.takeEdge_receiving_data (b.getLsbD k) hm (k := ⟨k, hk⟩) hp
    have hbits : ∀ j, (s.receiveBit ⟨k, hk⟩ (b.getLsbD k)).sr.getLsbD j = (decide (j < k + 1) && b.getLsbD j) := by
      intro j
      rw [State.receiveBit_sr, orBit_getLsbD, hsr]
      rcases Nat.lt_trichotomy j k with hlt | rfl | hgt
      · simp [hlt, hlt.ne, hlt.trans (Nat.lt_succ_self k)]
      · simp
      · simp [hgt.ne', hgt.not_gt, show ¬j < k + 1 by omega]
    rw [wireBits_drop b ⟨k, hk⟩, State.takeEdges_of_next hedge]
    exact ih hm rfl hbits

/-- The data edges from position `k + 1` on put the bits of `SR` from `k` up on the data wire in turn, whatever the
levels the edges carry (R101). -/
theorem State.takeEdges_sendData {k : Nat} (hk : k ≤ 8) {ds : List Bool} (hlen : ds.length + k = 8)
    (hm : s.mode = .sending) (hp : s.pos.val = k + 1) :
    ∃ wire, s.takeEdges ds = .next { s with
      pos := 9
      datadrv := wire
      trace := (((wireBits s.sr).drop k).map (fun x => Obs.data (driveOf x))).reverse ++ s.trace } := by
  induction hk using Nat.decreasingInduction generalizing s ds with
  | self =>
    have hpos : s.pos = 9 := Fin.ext hp
    rw [List.eq_nil_of_length_eq_zero (show ds.length = 0 by omega), ← hpos]
    exact ⟨s.datadrv, rfl⟩
  | of_succ k hk ih =>
    obtain ⟨d, es, rfl⟩ := List.exists_cons_of_length_eq_add_one (show ds.length = (7 - k) + 1 by omega)
    have hedge := State.takeEdge_sending_data d hm (k := ⟨k, hk⟩) hp
    obtain ⟨wire, hrest⟩ := ih (s := s.sendBit ⟨k, hk⟩) (ds := es)
      (by simp only [List.length_cons] at hlen; omega) hm rfl
    refine ⟨wire, ?_⟩
    rw [State.takeEdges_of_next hedge, hrest, wireBits_drop s.sr ⟨k, hk⟩, List.map_cons, List.reverse_cons,
      List.append_assoc]
    rfl

/-! ### The whole frames -/

/-- Settles O25: from Idle the first edge clears `SR`, the data edges complete the byte (`State.takeEdges_receiveData`),
and the stop edge queues it (`State.endReceive_eq`). -/
theorem rxFrameReceivesItsByte : Obligations.RxFrameReceivesItsByte := by
  intro s start parityBit stop b hm hp
  have hdata : s.startReceive.takeEdges (wireBits b) = .next { s.startReceive with sr := b, pos := 9 } :=
    State.takeEdges_receiveData (Nat.zero_le 8) b rfl rfl (by simp)
  change s.takeEdges (start :: (wireBits b ++ [parityBit, stop])) = _
  rw [State.takeEdges_of_next (State.takeEdge_idle start hm hp), State.takeEdges_append_of_next hdata,
    State.takeEdges_of_next (State.takeEdge_receiving_parity parityBit rfl rfl),
    State.takeEdges_of_next (State.takeEdge_receiving_stop stop rfl rfl), State.endReceive_eq]
  rfl

/-- What a send leaves: the byte was taken out of `CMDP` and stands in `SR`, and the wires were driven as R105 lists. -/
def State.afterSend (s : State) (b : Byte) (rest : List Byte) : State :=
  { s with
    cmdp := rest
    sr := b
    mode := .idle
    pos := 0
    clkdrv := .released
    datadrv := .released
    trace :=
      .data .released :: .data (driveOf (parity b)) ::
        (((wireBits b).map (fun x => Obs.data (driveOf x))).reverse ++
          .clk .released :: .data .low :: .rts s.cfg.rtsHold :: .clk .low :: s.trace) }

/-- A send frame: eight data edges (`State.takeEdges_sendData`), then parity, stop and acknowledge (R102 to R104). -/
theorem State.sendFrame_eq (s : State) (b : Byte) (rest : List Byte) (ack : Bool) :
    s.sendFrame b rest ack = .next (s.afterSend b rest) := by
  obtain ⟨wire, hdata⟩ := State.takeEdges_sendData (s := s.beginSend b rest) (Nat.zero_le 8) (ds := wireBits b) rfl
    rfl rfl
  rw [State.sendFrame, State.takeEdges_append_of_next hdata,
    State.takeEdges_of_next (State.takeEdge_sending_parity (parity b) rfl rfl),
    State.takeEdges_of_next (State.takeEdge_sending_stop true rfl rfl),
    State.takeEdges_of_next (State.takeEdge_sending_ack ack rfl rfl)]
  rfl

/-- Settles O31, by `State.sendFrame_eq`. -/
theorem txFrameSendsItsByte : Obligations.TxFrameSendsItsByte := by
  intro s b rest ack hc hm
  exact (exec_txFrame hc hm ack).trans (s.sendFrame_eq b rest ack)

/-- Settles O33: the levels do not matter (`State.takeEdges_sending_levels`), so the edges end the send as those of a
send frame do. -/
theorem anyElevenEdgesEndASend : Obligations.AnyElevenEdgesEndASend := by
  intro s t levels hc hm h hlen
  obtain ⟨b, rest, hc⟩ := List.exists_cons_of_ne_nil hc
  cases (exec_sendStart hc hm).symm.trans h
  have hlevels : (s.beginSend b rest).takeEdges levels = s.sendFrame b rest true :=
    State.takeEdges_sending_levels rfl hlen (by rw [hlen, State.beginSend_pos]; decide)
  exact ⟨s.afterSend b rest, hlevels.trans (s.sendFrame_eq b rest true), rfl, rfl, rfl, rfl, rfl⟩

/-! ### The start of a send -/

/-- Settles O29: `SEND_START` answers `State.beginSend`, whose last part is the response of `TX.START`. -/
theorem sendStartBeginsASend : Obligations.SendStartBeginsASend := by
  rintro s b rest hc hm inside rfl
  rw [exec_sendStart hc hm]
  exact ⟨rfl, fun d => rfl⟩

theorem held_sendStart_iff : held .sendStart s = true ↔ s.cmdp = [] ∨ s.mode ≠ .idle := by
  simp [held]

theorem held_txFrame_iff (b : Byte) (ack : Bool) :
    held (.txFrame b ack) s = true ↔ s.cmdp = [] ∨ s.mode ≠ .idle := by
  simp [held]

/-- Settles O30: both sends are held while nothing is pending or a frame is in progress (`exec_of_held`), and a frame is
that of the first pending byte. -/
theorem sendsWaitForIdle : Obligations.SendsWaitForIdle := by
  intro s b ack
  refine ⟨fun h => ⟨exec_of_held (held_sendStart_iff.2 h), exec_of_held ((held_txFrame_iff b ack).2 h)⟩, ?_⟩
  intro c rest hc hm hne
  change execTxFrame b ack s = _
  simp [execTxFrame, hc, hm, hne]

/-! ### What neither an edge nor a send writes -/

/-- What only the edges, the start of a send and `INIT` write has not been written: the frame-assembly fields, the
wires, the parameters, the line's inputs and the turns (R201). -/
structure State.KeepsFrame (s t : State) : Prop where
  pos : t.pos = s.pos
  sr : t.sr = s.sr
  mode : t.mode = s.mode
  clkdrv : t.clkdrv = s.clkdrv
  datadrv : t.datadrv = s.datadrv
  cfg : t.cfg = s.cfg
  events : t.events = s.events
  turns : t.turns = s.turns

theorem State.keepsFrame_update (s : State) (q : List Byte) (f : Flags) (c : List Byte) (calls : List Code)
    (trace : List Obs) : s.KeepsFrame { s with q := q, flags := f, cmdp := c, calls := calls, trace := trace } :=
  ⟨rfl, rfl, rfl, rfl, rfl, rfl, rfl, rfl⟩

theorem State.KeepsFrame.observe (h : s.KeepsFrame t) (o : Obs) : s.KeepsFrame (t.observe o) :=
  ⟨h.pos, h.sr, h.mode, h.clkdrv, h.datadrv, h.cfg, h.events, h.turns⟩

theorem State.KeepsFrame.hold (h : s.KeepsFrame t) (i : Instr) : s.KeepsFrame (t.hold i) :=
  ⟨h.pos, h.sr, h.mode, h.clkdrv, h.datadrv, h.cfg, h.events, h.turns⟩

theorem State.keepsFrame_enqueue (s : State) (b : Byte) : s.KeepsFrame (s.enqueue b).2 := by
  rw [State.enqueue_snd]
  exact s.keepsFrame_update _ _ _ _ _

theorem State.keepsFrame_finishConsume (s : State) (o : Translation) : s.KeepsFrame (s.finishConsume o).2 := by
  rw [State.finishConsume_snd]
  exact s.keepsFrame_update _ _ _ _ _

theorem State.keepsFrame_consumeOne (s : State) : s.KeepsFrame s.consumeOne.2 := by
  rw [State.consumeOne_eq]
  split
  · exact s.keepsFrame_update _ _ _ _ _
  · rw [State.finishConsume_snd]
    exact s.keepsFrame_update _ _ _ _ _

/-- An operation other than an edge, a receive frame and `INIT` starts a send from Idle, or it keeps the frame and the
queue loses at most its head or, by `ENQUEUE`, gains a byte. -/
theorem exec_startsSend_or_keepsFrame {i : Instr} (hk : i.edgeKey = none) (he : ∀ d, i ≠ .edge d)
    (hf : i.format ≠ .frameRx) (hinit : ∀ k, i ≠ .init k) (h : exec i s = .next t) :
    (s.mode = .idle ∧ ∃ b rest, s.cmdp = b :: rest ∧ ((i = .sendStart ∧ t = s.beginSend b rest) ∨
      ∃ ack, i = .txFrame b ack ∧ t = s.afterSend b rest)) ∨
    (s.KeepsFrame t ∧ (t.q = s.q ∨ t.q = s.q.tail ∨ ∃ b, i = .enqueue b)) := by
  rcases exec_cases h with ⟨d, hi, -⟩ | ⟨_, _, _, _, rfl, -⟩ | ⟨-, rfl⟩ | ⟨b, rest, hc, hm, hsend⟩ | ⟨-, -, hrow⟩ |
    ⟨b, hi, rfl⟩ | ⟨-, rfl⟩ | ⟨sc, -, rfl⟩ | ⟨-, hcons⟩ | ⟨-, hhost⟩ | ⟨k, hi, -, -⟩
  · rcases hi with hi | hi
    · simp [hk] at hi
    · exact absurd hi (he d)
  · exact absurd rfl hf
  · exact .inr ⟨s.keepsFrame_update _ _ _ _ _, .inl rfl⟩
  · refine .inl ⟨hm, b, rest, hc, hsend.imp_right ?_⟩
    rintro ⟨ack, hi, hframe⟩
    exact ⟨ack, hi, Host.Outcome.next.inj (hframe.symm.trans (s.sendFrame_eq b rest ack))⟩
  · rcases hrow with rfl | ⟨o, -, rfl⟩
    · exact .inr ⟨s.keepsFrame_update _ _ _ _ _, .inl rfl⟩
    · exact .inr ⟨(s.keepsFrame_finishConsume o).observe _, .inl (s.finishConsume_q o)⟩
  · exact .inr ⟨(s.keepsFrame_enqueue b).observe _, .inr (.inr ⟨b, hi⟩)⟩
  · exact .inr ⟨s.keepsFrame_update _ _ _ _ _, .inr (.inl rfl)⟩
  · exact .inr ⟨s.keepsFrame_update _ _ _ _ _, .inl rfl⟩
  · rcases hcons with ⟨-, rfl⟩ | ⟨-, ⟨r, rfl⟩ | rfl⟩
    · exact .inr ⟨s.keepsFrame_consumeOne.observe _, .inr (.inl s.consumeOne_q)⟩
    · exact .inr ⟨s.keepsFrame_consumeOne.observe _, .inr (.inl s.consumeOne_q)⟩
    · exact .inr ⟨s.keepsFrame_consumeOne.hold _, .inr (.inl s.consumeOne_q)⟩
  · rcases hhost with ⟨b, -, rfl⟩ | ⟨c, n, l, -, rfl⟩ | ⟨-, rfl⟩ <;>
      exact .inr ⟨s.keepsFrame_update _ _ _ _ _, .inl rfl⟩
  · exact absurd hi (hinit k)

/-! ### The transitions of MODE -/

/-- The mode after an edge at position `p` of a frame (R111). -/
def modeAfterEdge : Mode → Nat → Mode
  | .idle, _ => .receiving
  | .receiving, p => if p = 10 then .idle else .receiving
  | .sending, p => if p = 11 then .idle else .sending

theorem State.takeEdge_mode {d : Bool} (h : s.takeEdge d = .next t) : t.mode = modeAfterEdge s.mode s.pos.val := by
  rcases State.takeEdge_cases h with ⟨hm, hp, rfl⟩ | ⟨hm, k, hp, rfl⟩ | ⟨hm, hp, rfl⟩ | ⟨hm, hp, rfl⟩ | ⟨hm, hp, rfl⟩ |
    ⟨hm, k, hp, rfl⟩ | ⟨hm, hp, rfl⟩ | ⟨hm, hp, rfl⟩ | ⟨hm, hp, rfl⟩
  case inr.inl | inr.inr.inr.inr.inr.inl =>
    have hlast : k.val + 1 ≠ 10 ∧ k.val + 1 ≠ 11 := by omega
    simp [modeAfterEdge, hm, hp, hlast]
  all_goals simp [modeAfterEdge, hm, hp]

theorem exec_sendStart_mode (h : exec .sendStart s = .next t) :
    t.mode = if s.mode = .idle ∧ s.cmdp ≠ [] then .sending else s.mode := by
  by_cases hs : s.mode = .idle ∧ s.cmdp ≠ []
  · obtain ⟨b, rest, hc⟩ := List.exists_cons_of_ne_nil hs.2
    cases (exec_sendStart hc hs.1).symm.trans h
    rw [if_pos hs, State.beginSend_mode]
  · have hheld : held .sendStart s = true := held_sendStart_iff.2 (by tauto)
    cases (exec_of_held hheld).symm.trans h
    rw [if_neg hs, State.hold_mode]

theorem exec_init_mode {k : InitKind} (h : exec (.init k) s = .next t) :
    t.mode = if k = .call ∧ s.cmdp ≠ [] then s.mode else .idle := by
  cases k with
  | reset => cases h; rfl
  | call =>
    rcases State.whenFree_cases (s := s) (.init .call) (.next s.initialise) with ⟨hc, hgo⟩ | ⟨hc, hwait⟩
    · cases hgo.symm.trans h
      simp [hc]
    · cases hwait.symm.trans h
      simp [hc]

/-- Settles O12: an edge, `SEND_START` and `INIT` change the mode as listed, and what starts no send keeps it
(`exec_startsSend_or_keepsFrame`). -/
theorem modeChangesOnlyAsListed : Obligations.ModeChangesOnlyAsListed := by
  intro s _
  refine ⟨fun d t h => ?_, fun t h => exec_sendStart_mode h, fun k t h => exec_init_mode h, ?_⟩
  · have hmode := State.takeEdge_mode h
    cases hm : s.mode <;> rw [hm] at hmode <;> exact hmode
  · intro i t hk hrx htx he hs hinit h
    rcases exec_startsSend_or_keepsFrame hk he hrx hinit h with ⟨-, b, rest, -, hsend⟩ | ⟨hkeep, -⟩
    · rcases hsend with ⟨hi, -⟩ | ⟨ack, rfl, -⟩
      · exact absurd hi hs
      · exact absurd rfl htx
    · exact hkeep.mode

/-! ### The foreground and the frame -/

/-- The foreground's operations are no edges, no receive frame, no `ENQUEUE` and not the reset input (R75). -/
theorem not_line_of_foreground {i : Instr} (ha : agentOf i = .foreground) :
    i.edgeKey = none ∧ (∀ d, i ≠ .edge d) ∧ i.format ≠ .frameRx ∧ (∀ b, i ≠ .enqueue b) ∧ i ≠ .init .reset := by
  cases i
  case init k => cases k <;> cases ha; simp [Instr.edgeKey, Instr.format]
  all_goals cases ha <;> simp [Instr.edgeKey, Instr.format]

/-- Settles O14: a send starts from Idle only and writes neither the parameters nor the inputs nor the queue, and
every other operation of the foreground keeps the frame (`exec_startsSend_or_keepsFrame`). -/
theorem foregroundContextRights : Obligations.ForegroundContextRights := by
  intro i s t ha hcall h
  obtain ⟨hk, he, hf, henq, hreset⟩ := not_line_of_foreground ha
  have hinit : ∀ k, i ≠ .init k
    | .reset => hreset
    | .call => hcall
  rcases exec_startsSend_or_keepsFrame hk he hf hinit h with ⟨hm, b, rest, -, hsend⟩ | ⟨hkeep, hq⟩
  · rcases hsend with ⟨rfl, rfl⟩ | ⟨ack, rfl, rfl⟩
    · exact ⟨rfl, rfl, rfl, .inl rfl, fun hno => absurd hm (hno.resolve_left fun hi => hi.1 rfl)⟩
    · exact ⟨rfl, rfl, rfl, .inl rfl, fun hno => absurd hm (hno.resolve_left fun hi => hi.2 b ack rfl)⟩
  · have hqueue : t.q = s.q ∨ t.q = s.q.tail := by
      rcases hq with hq | hq | ⟨b, hi⟩
      · exact .inl hq
      · exact .inr hq
      · exact absurd hi (henq b)
    exact ⟨hkeep.cfg, hkeep.events, hkeep.turns, hqueue,
      fun _ => ⟨hkeep.pos, hkeep.sr, hkeep.mode, hkeep.clkdrv, hkeep.datadrv⟩⟩

end Sys2Proof.Machine
end

section
/-! The statements of spec/41_queue.md and of R156's empty result: the two accesses of the queue, the ring buffer that
implements them (R125), and the byte `0x00` that reads as "empty". -/

namespace Sys2Proof.Machine

variable {s : State}

/-! ### The empty queue -/

theorem State.headByte_nil (h : s.q = []) : s.headByte = 0x00 := by
  simp [State.headByte, h]

/-- `Dequeue` leaves the empty queue as it is (R123). -/
theorem State.dequeue_nil (h : s.q = []) : s.dequeue.2 = s := by
  cases s
  cases h
  rfl

/-! ### The two accesses -/

theorem exec_enqueue (s : State) (b : Byte) :
    exec (.enqueue b) s = .next ((s.enqueue b).2.observe (.enqueue (s.enqueue b).1)) := rfl

theorem exec_dequeue (s : State) : exec .dequeue s = .next (s.dequeue.2.observe (.dequeue s.headByte)) := rfl

/-- Settles O34: `Enqueue` writes the queue by whether there is room (`State.enqueue_snd`). -/
theorem enqueueAppendsOrDiscards : Obligations.EnqueueAppendsOrDiscards := by
  intro s b
  refine ⟨fun hroom => ?_, fun hfull => ?_⟩
  · rw [exec_enqueue, State.enqueue_fst, State.enqueue_snd, if_pos hroom, decide_eq_true hroom]
    rfl
  · rw [exec_enqueue, State.enqueue_fst, State.enqueue_snd, if_neg hfull.not_gt, decide_eq_false hfull.not_gt]
    rfl

/-- Settles O35: the head of the queue is returned and removed, and the empty queue has none. -/
theorem dequeueRemovesTheOldest : Obligations.DequeueRemovesTheOldest := by
  intro s
  refine ⟨fun b rest hq => ?_, fun hq => ?_⟩
  · rw [exec_dequeue, State.headByte_cons hq, State.dequeue_cons hq]
    rfl
  · rw [exec_dequeue, State.headByte_nil hq, State.dequeue_nil hq]
    rfl

/-! ### The byte that reads as empty -/

/-- `CONSUME` takes the head byte `0x00`, an entry or the sentinel, for the empty queue (R156, D25). -/
theorem exec_consume_zero (hc : s.cmdp = []) (h : s.headByte = 0x00) :
    exec .consume s = .next (s.dequeue.2.observe (.consume .empty)) := by
  rw [exec_consume hc, State.consumeOne_eq, if_pos h]

/-- Settles O39: the sentinel and an entry `0x00` give the same head byte (`exec_consume_zero`). -/
theorem zeroByteReadsAsEmpty : Obligations.ZeroByteReadsAsEmpty := by
  intro s hc
  refine ⟨State.whenFree_free hc .scEmpty _, fun hq => ?_, fun rest hq => ?_⟩
  · rw [exec_consume_zero hc (State.headByte_nil hq), State.dequeue_nil hq]
    rfl
  · rw [exec_consume_zero hc (State.headByte_cons hq), State.dequeue_cons hq]
    rfl

/-! ### The ring buffer

Under `Ring.Wf` a ring with no room has `N` entries and a ring with room has a free cell behind the last one; that the
accesses keep the other cells' places is arithmetic modulo `N`. -/

section Ring
variable {r : Ring} {n : Nat} {b : Byte}

@[simp] theorem Ring.length_contents (r : Ring) : r.contents.length = r.cnt := by
  simp [Ring.contents]

/-- Two entries of a ring lie in different cells. -/
theorem add_mod_ne_of_lt {rd k c : Nat} (hk : k < c) (hc : c < n) : (rd + k) % n ≠ (rd + c) % n := fun h =>
  hk.ne ((Nat.ModEq.add_left_cancel' rd h).eq_of_lt_of_lt (hk.trans hc) hc)

/-- With room, `Enqueue` writes the cell behind the last entry and no entry (R125). -/
theorem Ring.contents_enqueue (hw : r.Wf n) (hroom : r.cnt < n) : (r.enqueue b).2.contents = r.contents ++ [b] := by
  obtain ⟨hlen, hrd, -⟩ := hw
  subst hlen
  have hcell : (r.rd + r.cnt) % r.mem.length < r.mem.length := Nat.mod_lt _ (by omega)
  have hkept : ∀ k < r.cnt, (r.mem.set ((r.rd + r.cnt) % r.mem.length) b)[(r.rd + k) % r.mem.length]? =
      r.mem[(r.rd + k) % r.mem.length]? := fun k hk => List.getElem?_set_ne (add_mod_ne_of_lt hk hroom).symm
  simp +contextual [Ring.enqueue, hroom, Ring.contents, List.range_succ, hkept, hcell]

/-- A ring that is not empty stands for what `Dequeue` returns before what it leaves (R125). -/
theorem Ring.contents_eq_cons (hw : r.Wf n) (hcnt : r.cnt ≠ 0) :
    r.contents = r.dequeue.1 :: r.dequeue.2.contents := by
  obtain ⟨hlen, hrd, -⟩ := hw
  subst hlen
  obtain ⟨c, hc⟩ := Nat.exists_eq_succ_of_ne_zero hcnt
  simp [Ring.dequeue, Ring.contents, hc, List.range_succ_eq_map, Nat.mod_eq_of_lt hrd, Function.comp_def,
    Nat.add_assoc, Nat.add_comm 1]

theorem Ring.Wf.enqueue (hw : r.Wf n) (b : Byte) : (r.enqueue b).2.Wf n := by
  obtain ⟨hlen, hrd, hcnt⟩ := hw
  unfold Ring.enqueue
  split
  next hroom => exact ⟨by simpa using hlen, hrd, hlen ▸ hroom⟩
  next => exact ⟨hlen, hrd, hcnt⟩

theorem Ring.Wf.dequeue (hw : r.Wf n) : r.dequeue.2.Wf n := by
  obtain ⟨hlen, hrd, hcnt⟩ := hw
  unfold Ring.dequeue
  split
  next => exact ⟨hlen, hrd, hcnt⟩
  next => exact ⟨hlen, hlen ▸ Nat.mod_lt _ (by omega), (Nat.sub_le _ _).trans hcnt⟩

/-- A full ring refuses a byte as the full queue does, and a ring with room appends it. -/
theorem Ring.enqueue_eq_state (hw : r.Wf s.cfg.n) (hq : r.contents = s.q) (b : Byte) :
    (r.enqueue b).1 = (s.enqueue b).1 ∧ (r.enqueue b).2.contents = (s.enqueue b).2.q := by
  have hcnt : s.q.length = r.cnt := by rw [← hq, Ring.length_contents]
  have hlen : r.mem.length = s.cfg.n := hw.1
  rw [State.enqueue_fst, State.enqueue_q, hcnt]
  by_cases hroom : r.cnt < s.cfg.n
  · rw [Ring.contents_enqueue hw hroom, if_pos hroom, hq]
    exact ⟨by simp [Ring.enqueue, hlen, hroom], rfl⟩
  · simp [Ring.enqueue, hlen, hroom, hq]

/-- `Dequeue` of a ring returns and removes what it does of the queue; the empty ring returns `0x00`. -/
theorem Ring.dequeue_eq_state (hw : r.Wf n) (hq : r.contents = s.q) :
    r.dequeue.1 = s.dequeue.1 ∧ r.dequeue.2.contents = s.dequeue.2.q := by
  rw [State.dequeue_fst, State.dequeue_q, ← hq]
  by_cases hcnt : r.cnt = 0
  · have hnil : r.contents = [] := List.length_eq_zero_iff.1 (r.length_contents.trans hcnt)
    simp [Ring.dequeue, hcnt, hnil, State.headByte_nil (hq.symm.trans hnil)]
  · have hcons := Ring.contents_eq_cons hw hcnt
    rw [State.headByte_cons (hq.symm.trans hcons), hcons]
    exact ⟨rfl, rfl⟩

end Ring

/-- Settles O37: the reset ring has no entries, and each access of a ring does what the queue's does
(`Ring.enqueue_eq_state`, `Ring.dequeue_eq_state`) and keeps the ring well formed. -/
theorem ringBufferImplementsTheQueue : Obligations.RingBufferImplementsTheQueue := by
  refine ⟨fun n mem hn hmem => ⟨⟨hmem, hn, n.zero_le⟩, rfl, rfl⟩, fun s r b hw hq => ?_⟩
  obtain ⟨henq, henqQ⟩ := Ring.enqueue_eq_state hw hq b
  obtain ⟨hdeq, hdeqQ⟩ := Ring.dequeue_eq_state hw hq
  exact ⟨⟨henq, hw.enqueue b, henqQ⟩, hdeq, hw.dequeue, hdeqQ⟩

end Sys2Proof.Machine
end

section
/-! The statements of spec/42_translator.md: what `TRANSLATE` makes of a byte (R130 to R155, R159), the scancode rows
that do the same inside `CONSUME`, one turn of `POLL` (R157), and which flags and tables a translation reads. The
context and the class of a byte (R65) choose its one effect on the flags, so a statement goes through the two. -/

namespace Sys2Proof.Machine

variable {cfg : Config} {f : Flags} {s : State} {sc c : Byte}

/-! ### The classes of the other bytes -/

theorem classify_fixed :
    (classify cfg sc = .extPrefix → sc = 0xE0#8) ∧ (classify cfg sc = .breakPrefix → sc = 0xF0#8) ∧
      (classify cfg sc = .batOk → sc = 0xAA#8) := by
  unfold classify
  split_ifs <;> simp_all

/-- A byte that is neither a key code nor a fixed byte is in the last class (R65). -/
theorem classify_of_not_key (h : sc ∉ [cfg.scLshift, cfg.scRshift, cfg.scCtrl, cfg.scAlt, cfg.scCaps, cfg.scNum,
    cfg.scScroll, 0xE0#8, 0xF0#8, 0xAA#8]) : classify cfg sc = .other := by
  simp only [List.mem_cons, List.not_mem_nil, or_false, not_or] at h
  simp [classify, h]

/-- Every byte but Ctrl, Alt and the fixed bytes is looked up in extended context (R143). -/
theorem extLooksUp_classify (h : sc ∉ [cfg.scCtrl, cfg.scAlt, 0xE0#8, 0xF0#8, 0xAA#8]) :
    (classify cfg sc).extLooksUp = true := by
  simp only [List.mem_cons, List.not_mem_nil, or_false, not_or] at h
  unfold classify
  split_ifs <;> simp_all [ScClass.extLooksUp]

/-- The classes of the three lock keys, which share the latch (R147 to R150). -/
def IsLockClass (k : ScClass) : Prop := k = .caps ∨ k = .num ∨ k = .scroll

theorem isLockClass_classify (h : cfg.Tc5) (hm : sc ∈ [cfg.scCaps, cfg.scNum, cfg.scScroll]) :
    IsLockClass (classify cfg sc) := by
  obtain ⟨⟨-, -, -, -, hcaps, hnum, hscroll⟩, -⟩ := classify_keys h
  simp only [List.mem_cons, List.not_mem_nil, or_false] at hm
  rcases hm with rfl | rfl | rfl
  · exact .inl hcaps
  · exact .inr (.inl hnum)
  · exact .inr (.inr hscroll)

/-! ### The translation in each context -/

theorem translateByte_break (hb : f.brk = true) {k : ScClass} (hk : classify cfg sc = k) :
    translateByte cfg sc f = f.onBreak k := by
  rw [translateByte_eq, if_pos hb, hk]

theorem translateByte_extended (hb : f.brk = false) (he : f.ext = true) {k : ScClass} (hk : classify cfg sc = k) :
    translateByte cfg sc f = f.onExtended cfg sc k := by
  rw [translateByte_eq, if_neg (by simp [hb]), if_pos he, hk]

theorem translateByte_plain (hb : f.brk = false) (he : f.ext = false) {k : ScClass} (hk : classify cfg sc = k) :
    translateByte cfg sc f = f.onPlain cfg sc k := by
  rw [translateByte_eq, if_neg (by simp [hb]), if_neg (by simp [he]), hk]

theorem Flags.onBreak_lock {k : ScClass} (hk : IsLockClass k) : f.onBreak k = f.onBreakLock := by
  rcases hk with rfl | rfl | rfl <;> rfl

theorem Flags.onExtended_other {k : ScClass} (hk : k.extLooksUp = true) :
    f.onExtended cfg sc k = f.onExtOther cfg sc := by
  cases k
  case shift | caps | num | scroll | other => rfl
  all_goals cases hk

/-- With the latch set a lock key is looked up (R150, D26). -/
theorem Flags.onPlain_latched {k : ScClass} (hk : IsLockClass k) (hl : f.lockpend = true) :
    f.onPlain cfg sc k = f.onLookup cfg sc := by
  rcases hk with rfl | rfl | rfl <;> exact if_pos hl

/-- With the latch clear each lock key toggles its own flag (R147 to R149). -/
theorem translateByte_lock (h : cfg.Tc5) (hb : f.brk = false) (he : f.ext = false) (hl : f.lockpend = false) :
    translateByte cfg cfg.scCaps f = f.onMakeCaps ∧ translateByte cfg cfg.scNum f = f.onMakeNum ∧
      translateByte cfg cfg.scScroll f = f.onMakeScroll := by
  obtain ⟨⟨-, -, -, -, hcaps, hnum, hscroll⟩, -⟩ := classify_keys h
  have hclear : ¬f.lockpend = true := by simp [hl]
  exact ⟨(translateByte_plain hb he hcaps).trans (if_neg hclear),
    (translateByte_plain hb he hnum).trans (if_neg hclear),
    (translateByte_plain hb he hscroll).trans (if_neg hclear)⟩

theorem translateByte_latched (h : cfg.Tc5) (hb : f.brk = false) (he : f.ext = false) (hl : f.lockpend = true)
    (hm : sc ∈ [cfg.scCaps, cfg.scNum, cfg.scScroll]) : translateByte cfg sc f = f.onLookup cfg sc :=
  (translateByte_plain hb he rfl).trans (Flags.onPlain_latched (isLockClass_classify h hm) hl)

/-! ### The lookup -/

theorem isLower_iff : isLower c = true ↔ 0x61 ≤ c.toNat ∧ c.toNat ≤ 0x7A := by
  simp [isLower, BitVec.le_def]

/-- `Fold` (R152, D18) on the ASCII codes: a lowercase letter's code less `0x20`, exactly when Shift XOR CapsLock. -/
theorem Flags.fold_eq (f : Flags) (c : Byte) :
    f.fold c =
      if 0x61 ≤ c.toNat ∧ c.toNat ≤ 0x7A ∧ f.shift ≠ f.caps then BitVec.ofNat 8 (c.toNat - 0x20) else c := by
  have hsub : isLower c = true → c - 0x20#8 = BitVec.ofNat 8 (c.toNat - 0x20) := fun hlow => by
    have := isLower_iff.1 hlow
    bv_omega
  unfold Flags.fold
  by_cases hlow : isLower c = true
  · obtain ⟨hlo, hhi⟩ := isLower_iff.1 hlow
    simp [hlow, hsub hlow, hlo, hhi]
  · have hrange : ¬(0x61 ≤ c.toNat ∧ c.toNat ≤ 0x7A) := fun h => hlow (isLower_iff.2 h)
    rw [if_neg hlow, if_neg (fun h => hrange ⟨h.1, h.2.1⟩)]

/-- No entry, no character (R153). -/
theorem Flags.onLookup_of_none (h : (f.table cfg).read sc = none) : f.onLookup cfg sc = f.silent := by
  rw [Flags.onLookup, h]
  rfl

theorem Flags.onLookup_of_some (h : (f.table cfg).read sc = some c) :
    f.onLookup cfg sc = ⟨f, some (f.fold c), false⟩ := by
  rw [Flags.onLookup, h]
  rfl

/-! ### TRANSLATE by class -/

/-- Settles O43: the fixed bytes come first in every context, and in break context the class chooses the effect
(`translateByte_break`). -/
theorem translateFixedBytesAndBreaks : Obligations.TranslateFixedBytesAndBreaks := by
  intro cfg f hwf
  obtain ⟨-, -, -, -, -, htc5⟩ := hwf
  obtain ⟨⟨hl, hr, hctrl, halt, hcaps, hnum, hscroll⟩, -⟩ := classify_keys htc5
  refine ⟨rfl, rfl, rfl, ?_⟩
  rintro hb _ rfl
  exact ⟨translateByte_break hb hl, translateByte_break hb hr, translateByte_break hb hctrl,
    translateByte_break hb halt, translateByte_break hb hcaps, translateByte_break hb hnum,
    translateByte_break hb hscroll, fun sc hsc => translateByte_break hb (classify_of_not_key hsc)⟩

/-- Settles O44: in each context the class chooses the effect; what is looked up is `Flags.onLookup`, whose folding is
`Flags.fold_eq`. -/
theorem translateExtendedAndPlainMakes : Obligations.TranslateExtendedAndPlainMakes := by
  intro cfg f hwf hb
  obtain ⟨-, -, -, -, -, htc5⟩ := hwf
  obtain ⟨⟨hl, hr, hctrl, halt, -⟩, -⟩ := classify_keys htc5
  refine ⟨fun he => ⟨translateByte_extended hb he hctrl, translateByte_extended hb he halt, fun sc hsc =>
    (translateByte_extended hb he rfl).trans (Flags.onExtended_other (extLooksUp_classify hsc))⟩, fun he =>
    ⟨translateByte_plain hb he hl, translateByte_plain hb he hr, translateByte_plain hb he hctrl,
      translateByte_plain hb he halt, translateByte_lock htc5 hb he, ?_⟩⟩
  intro result hresult
  have hlook : ∀ sc, f.onLookup cfg sc = ⟨f, result sc, false⟩ := fun sc => by
    subst hresult
    change f.onLookup cfg sc = ⟨f, match (f.table cfg).read sc with | none => _ | some c => _, false⟩
    cases hread : (f.table cfg).read sc with
    | none => exact Flags.onLookup_of_none hread
    | some c => rw [Flags.onLookup_of_some hread, Flags.fold_eq, apply_ite some]
  exact ⟨fun hlatch sc hsc => (translateByte_latched htc5 hb he hlatch hsc).trans (hlook sc),
    fun sc hsc => (translateByte_plain hb he (classify_of_not_key hsc)).trans (hlook sc)⟩

/-! ### What every translation keeps -/

theorem Flags.onBreak_silent (f : Flags) (k : ScClass) :
    (f.onBreak k).char = none ∧ (f.onBreak k).ledreq = false := by
  cases k <;> exact ⟨rfl, rfl⟩

/-- A plain make leaves `BRK` and `EXT`: a modifier or a lock key writes other flags, a lookup none. -/
theorem Flags.onPlain_context (f : Flags) (cfg : Config) (sc : Byte) {k : ScClass} (hE : k ≠ .extPrefix)
    (hF : k ≠ .breakPrefix) :
    (f.onPlain cfg sc k).flags.brk = f.brk ∧ (f.onPlain cfg sc k).flags.ext = f.ext := by
  cases k
  case extPrefix => exact absurd rfl hE
  case breakPrefix => exact absurd rfl hF
  case caps | num | scroll => simp only [Flags.onPlain]; split <;> exact ⟨rfl, rfl⟩
  all_goals exact ⟨rfl, rfl⟩

/-- Every byte but the fixed ones leaves `BRK` and `EXT` clear (R159): a break and an extended make clear them, and a
plain make finds them clear. -/
theorem translateByte_context (hE : sc ≠ 0xE0#8) (hF : sc ≠ 0xF0#8) (hA : sc ≠ 0xAA#8) (cfg : Config) (f : Flags) :
    (translateByte cfg sc f).flags.brk = false ∧ (translateByte cfg sc f).flags.ext = false := by
  obtain ⟨hext, hbrk, hbat⟩ := classify_fixed (cfg := cfg) (sc := sc)
  have hkE : classify cfg sc ≠ .extPrefix := fun h => hE (hext h)
  have hkF : classify cfg sc ≠ .breakPrefix := fun h => hF (hbrk h)
  have hkA : classify cfg sc ≠ .batOk := fun h => hA (hbat h)
  cases hb : f.brk with
  | true =>
    rw [translateByte_break hb rfl]
    cases hk : classify cfg sc
    case extPrefix | breakPrefix | batOk => contradiction
    all_goals exact ⟨rfl, rfl⟩
  | false =>
    cases he : f.ext with
    | true =>
      rw [translateByte_extended hb he rfl]
      cases hk : classify cfg sc
      case extPrefix | breakPrefix | batOk => contradiction
      all_goals exact ⟨hb, rfl⟩
    | false =>
      obtain ⟨hpb, hpe⟩ := Flags.onPlain_context f cfg sc hkE hkF
      rw [translateByte_plain hb he rfl]
      exact ⟨hpb.trans hb, hpe.trans he⟩

theorem exec_translate (sc : Byte) (s : State) :
    exec (.translate sc) s =
      .next { s with
        flags := (translateByte s.cfg sc s.flags).flags
        trace :=
          .translate (translateByte s.cfg sc s.flags).char (translateByte s.cfg sc s.flags).ledreq :: s.trace } :=
  rfl

/-- Settles O51: the fixed bytes each set their flag, every other byte leaves `BRK` and `EXT` clear
(`translateByte_context`), and neither a fixed byte nor a break emits a character. -/
theorem translateMovesThePrefixState : Obligations.TranslateMovesThePrefixState := by
  intro s sc
  refine ⟨_, _, _, exec_translate sc s, rfl, rfl, ?_, ?_, ?_, fun hE hF hA => translateByte_context hE hF hA _ _,
    fun hchar => ⟨?_, ?_, ?_, ?_⟩⟩
  · rintro rfl; exact ⟨rfl, rfl, rfl⟩
  · rintro rfl; exact ⟨rfl, rfl, rfl⟩
  · rintro rfl; exact ⟨rfl, rfl, rfl⟩
  · rintro rfl; cases hchar
  · rintro rfl; cases hchar
  · rintro rfl; cases hchar
  · cases hb : s.flags.brk with
    | false => rfl
    | true =>
      rw [translateByte_break hb rfl, (Flags.onBreak_silent _ _).1] at hchar
      cases hchar

/-- Settles O45: `TRANSLATE` answers the translation (`exec_translate`), which is a toggle (`translateByte_lock`). -/
theorem translateTogglesTheLock : Obligations.TranslateTogglesTheLock := by
  intro s hwf hb he hl
  obtain ⟨-, -, -, -, -, htc5⟩ := hwf
  obtain ⟨hcaps, hnum, hscroll⟩ := translateByte_lock htc5 hb he hl
  simp only [exec_translate, hcaps, hnum, hscroll]
  exact ⟨rfl, rfl, rfl⟩

/-! ### What a translation reads -/

/-- In a plain make Ctrl, Alt, ScrollLock and the self-test flag are not read but where ScrollLock toggles (R154). -/
theorem Flags.onPlain_ignores (f : Flags) (cfg : Config) (sc : Byte) (ctrl alt scroll bat : Bool) (k : ScClass) :
    (Flags.onPlain { f with ctrl := ctrl, alt := alt, scroll := scroll, bat := bat } cfg sc k).char =
        (f.onPlain cfg sc k).char ∧
      (Flags.onPlain { f with ctrl := ctrl, alt := alt, scroll := scroll, bat := bat } cfg sc k).ledreq =
        (f.onPlain cfg sc k).ledreq := by
  cases k
  case caps | num | scroll => simp only [Flags.onPlain]; split <;> exact ⟨rfl, rfl⟩
  all_goals exact ⟨rfl, rfl⟩

/-- Settles O55: the four flags choose no context, and in each context none of them is read for a character or the LED
request. -/
theorem someFlagsChangeNoCharacter : Obligations.SomeFlagsChangeNoCharacter := by
  intro cfg sc f ctrl alt scroll bat
  simp only [translateByte_eq]
  split
  · simp only [Flags.onBreak_silent, and_self]
  split
  · cases classify cfg sc <;> exact ⟨rfl, rfl⟩
  · exact Flags.onPlain_ignores f cfg sc ctrl alt scroll bat _

/-- In extended context no table but `T_EXT` is read, and in break context none (R134, R143). -/
theorem translateByte_tables (normal shift num ext : Rom) (h : f.brk = true ∨ f.ext = true ∧ ext = cfg.tExt) :
    translateByte { cfg with tNormal := normal, tShift := shift, tNum := num, tExt := ext } sc f =
      translateByte cfg sc f := by
  cases hb : f.brk with
  | true => rw [translateByte_break hb rfl, translateByte_break hb rfl]; rfl
  | false =>
    obtain ⟨he, rfl⟩ := h.resolve_left (by simp [hb])
    rw [translateByte_extended hb he rfl, translateByte_extended hb he rfl]
    change f.onExtended _ sc (classify cfg sc) = f.onExtended cfg sc (classify cfg sc)
    cases classify cfg sc <;> rfl

/-- `CONSUME` of the same byte reads the parameters in its translation and for the LED command alone. -/
theorem State.consumeOne_withCfg {other : Config} (hcmd : other.cmdSetLeds = s.cfg.cmdSetLeds)
    (ht : translateByte other s.headByte s.flags = translateByte s.cfg s.headByte s.flags) :
    State.consumeOne { s with cfg := other } = (s.consumeOne.1, { s.consumeOne.2 with cfg := other }) := by
  rw [State.consumeOne_eq, State.consumeOne_eq]
  change (if s.headByte = 0x00 then _ else State.finishConsume _ (translateByte other s.headByte s.flags)) = _
  rw [ht]
  split
  · rfl
  · refine Prod.ext rfl ?_
    rw [State.finishConsume_snd, State.finishConsume_snd]
    simp [State.dequeue, hcmd]

/-- Settles O52: the byte translates alike over the other tables (`translateByte_tables`), so `CONSUME` does
the same. -/
theorem prefixedKeysReadOnlyTheExtendedTable : Obligations.PrefixedKeysReadOnlyTheExtendedTable := by
  intro s t normal shift num ext hx hctx hc other hother
  have hcmd : other.cmdSetLeds = s.cfg.cmdSetLeds := by rw [hother]
  have ht : translateByte other s.headByte s.flags = translateByte s.cfg s.headByte s.flags := by
    rw [hother]
    exact translateByte_tables normal shift num ext hctx
  rw [exec_consume hc] at hx
  cases hx
  rw [exec_consume (s := { s with cfg := other }) hc, State.consumeOne_withCfg hcmd ht]
  rfl

/-! ### The latch -/

theorem translateAll_append (cfg : Config) (f : Flags) (as bs : List Byte) :
    translateAll cfg f (as ++ bs) = translateAll cfg (translateAll cfg f as) bs := by
  induction as generalizing f with
  | nil => rfl
  | cons a as ih => exact ih _

/-- A byte that leaves the flags leaves them however often it comes. -/
theorem translateAll_replicate (h : (translateByte cfg sc f).flags = f) (k : Nat) :
    translateAll cfg f (List.replicate k sc) = f := by
  induction k with
  | zero => rfl
  | succ k ih => rw [List.replicate_succ, translateAll, h, ih]

/-- A lock key whose first make code leaves the flags `g` with the latch set: its repeats leave them, since they are
lookups, and its release clears the latch (R138, R150, R160 (e)). -/
theorem translateAll_heldLock {g : Flags} (h : cfg.Tc5) (hm : sc ∈ [cfg.scCaps, cfg.scNum, cfg.scScroll])
    (hfirst : (translateByte cfg sc f).flags = { g with lockpend := true }) (hb : g.brk = false) (he : g.ext = false)
    (hl : g.lockpend = false) (k : Nat) :
    translateAll cfg f (List.replicate (k + 1) sc) = { g with lockpend := true } ∧
      translateAll cfg f (List.replicate (k + 1) sc ++ [0xF0#8, sc]) = g := by
  have hrepeat : (translateByte cfg sc { g with lockpend := true }).flags = { g with lockpend := true } :=
    congrArg Translation.flags (translateByte_latched (f := { g with lockpend := true }) h hb he rfl hm)
  have hheld : translateAll cfg f (List.replicate (k + 1) sc) = { g with lockpend := true } := by
    rw [List.replicate_succ, translateAll, hfirst, translateAll_replicate hrepeat]
  have hrelease : translateByte cfg sc { g with brk := true, lockpend := true } =
      Flags.onBreakLock { g with brk := true, lockpend := true } :=
    (translateByte_break rfl rfl).trans (Flags.onBreak_lock (isLockClass_classify h hm))
  refine ⟨hheld, ?_⟩
  rw [translateAll_append, hheld]
  calc translateAll cfg { g with lockpend := true } [0xF0#8, sc]
      = (translateByte cfg sc { g with brk := true, lockpend := true }).flags := rfl
    _ = { g with brk := false, ext := false, lockpend := false } := congrArg Translation.flags hrelease
    _ = g := by cases g; cases hb; cases he; cases hl; rfl

/-- Settles O54: each lock key toggles once (`translateByte_lock`) and is held after it (`translateAll_heldLock`). -/
theorem heldLockKeyTogglesOnce : Obligations.HeldLockKeyTogglesOnce := by
  intro cfg f k hwf hb he hl
  obtain ⟨-, -, -, -, -, htc5⟩ := hwf
  obtain ⟨hcaps, hnum, hscroll⟩ := translateByte_lock htc5 hb he hl
  exact ⟨translateAll_heldLock (g := { f with caps := !f.caps }) htc5 (by simp) (by rw [hcaps]; rfl) hb he hl k,
    translateAll_heldLock (g := { f with num := !f.num }) htc5 (by simp) (by rw [hnum]; rfl) hb he hl k,
    translateAll_heldLock (g := { f with scroll := !f.scroll }) htc5 (by simp) (by rw [hscroll]; rfl) hb he hl k⟩

/-! ### The scancode rows -/

/-- A selected row with no character and no LED request writes the flags and shows `nochar`. -/
theorem State.runScRow_silent (hc : s.cmdp = []) (i : Instr) {sel : Bool} (hs : sel = true) (g : Flags) :
    s.runScRow i sel g.silent = .next { s with flags := g, trace := .consume .nochar :: s.trace } :=
  State.runScRow_selected hc i hs _

/-- A selected row with a character writes the flags and shows the character. -/
theorem State.runScRow_char (hc : s.cmdp = []) (i : Instr) {sel : Bool} (hs : sel = true) (g : Flags) (c : Byte) :
    s.runScRow i sel ⟨g, some c, false⟩ = .next { s with flags := g, trace := .consume (.char c) :: s.trace } :=
  State.runScRow_selected hc i hs _

/-- Settles O38: the rows of the fixed bytes are selected in every context (`State.runScRow_silent`). -/
theorem fixedBytesSetTheirFlag : Obligations.FixedBytesSetTheirFlag := fun _ hc =>
  ⟨State.runScRow_silent hc .extPrefix rfl _, State.runScRow_silent hc .breakPrefix rfl _,
    State.runScRow_silent hc .batOk rfl _⟩

/-- Settles O40: each break row is selected in break context and emits nothing (`State.runScRow_silent`). -/
theorem breakRows : Obligations.BreakRows := by
  rintro s hc hb _ rfl _ rfl
  have hsel : s.inBreak = true := hb
  exact ⟨State.runScRow_silent hc .brkLshift hsel _, State.runScRow_silent hc .brkRshift hsel _,
    State.runScRow_silent hc .brkCtrl hsel _, State.runScRow_silent hc .brkAlt hsel _,
    State.runScRow_silent hc .brkCaps hsel _, State.runScRow_silent hc .brkNum hsel _,
    State.runScRow_silent hc .brkScroll hsel _,
    fun sc hw => State.runScRow_silent hc (.brkOther sc) (Bool.and_eq_true_iff.2 ⟨hsel, hw⟩) _⟩

/-- Settles O41: each extended row is selected in extended context; `T_EXT` decides whether a key shows a character. -/
theorem extendedRows : Obligations.ExtendedRows := by
  intro s hc hb he
  have hsel : s.inExtended = true := by simp [State.inExtended, hb, he]
  refine ⟨State.runScRow_silent hc .extCtrl hsel _, State.runScRow_silent hc .extAlt hsel _, fun sc hw => ?_⟩
  have hrow : (s.inExtended && (Instr.extOther sc).wf s.cfg) = true := Bool.and_eq_true_iff.2 ⟨hsel, hw⟩
  change (∀ c, _ → s.runScRow (.extOther sc) _ (s.flags.onExtOther s.cfg sc) = _) ∧
    (_ → s.runScRow (.extOther sc) _ (s.flags.onExtOther s.cfg sc) = _)
  unfold Flags.onExtOther
  refine ⟨fun c hread => ?_, fun hread => ?_⟩ <;> rw [hread]
  · exact State.runScRow_char hc (.extOther sc) hrow s.flags.endExt c
  · exact State.runScRow_silent hc (.extOther sc) hrow s.flags.endExt

/-- Settles O42: each modifier's row is selected in plain context (`State.runScRow_silent`). -/
theorem plainModifierRows : Obligations.PlainModifierRows := by
  intro s hc hb he
  have hsel : s.inPlain = true := by simp [State.inPlain, hb, he]
  exact ⟨State.runScRow_silent hc .makeLshift hsel _, State.runScRow_silent hc .makeRshift hsel _,
    State.runScRow_silent hc .makeCtrl hsel _, State.runScRow_silent hc .makeAlt hsel _⟩

/-- Settles O47: the four rows that look a key up run `Flags.onLookup`, whose folding is `Flags.fold_eq`. -/
theorem lookupRows : Obligations.LookupRows := by
  intro s hc hb he result hresult
  have hplain : s.inPlain = true := by simp [State.inPlain, hb, he]
  have hrow : ∀ (i : Instr) (sel : Bool) (sc : Byte), sel = true →
      s.runScRow i sel (s.flags.onLookup s.cfg sc) = .next { s with trace := .consume (result sc) :: s.trace } := by
    intro i sel sc hs
    subst hresult
    change s.runScRow i sel _ = .next { s with
      trace := .consume (match (s.flags.table s.cfg).read sc with | none => _ | some c => _) :: s.trace }
    cases hread : (s.flags.table s.cfg).read sc with
    | none => rw [Flags.onLookup_of_none hread]; exact State.runScRow_silent hc i hs s.flags
    | some c =>
      rw [Flags.onLookup_of_some hread, Flags.fold_eq, State.runScRow_char hc i hs, apply_ite ConsumeResult.char]
  refine ⟨fun sc hw => hrow (.makeOther sc) _ sc (Bool.and_eq_true_iff.2 ⟨hplain, hw⟩), fun hl => ?_⟩
  have hlatched : (s.inPlain && s.flags.lockpend) = true := Bool.and_eq_true_iff.2 ⟨hplain, hl⟩
  exact ⟨hrow .makeCapsLatched _ _ hlatched, hrow .makeNumLatched _ _ hlatched, hrow .makeScrollLatched _ _ hlatched⟩

/-! ### Letters -/

/-- What a lookup answers is listed. -/
theorem mem_of_read {t : Rom} (h : t.read sc = some c) : (sc.toNat, c) ∈ t := by
  induction t with
  | nil => cases h
  | cons cell t ih =>
    rw [Rom.read_cons] at h
    split_ifs at h with hcell hzero
    · rw [← hcell, ← Option.some.inj h]
      exact List.mem_cons_self
    · exact List.mem_cons_of_mem _ (ih h)

/-- With NumLock off a letter is looked up alike with and without Shift (TC2). -/
theorem Flags.table_read_letter (h : cfg.Tc2) (hn : f.num = false) (hread : cfg.tNormal.read sc = some c)
    (hlow : isLower c = true) : (f.table cfg).read sc = some c := by
  have hshift : cfg.tShift.read sc = some c := by
    simpa using h (sc.toNat, c) (mem_of_read hread) hlow
  cases hs : f.shift <;> simpa [Flags.table, hs, hn]

/-- Settles O53: either table has the letter (`Flags.table_read_letter`), and it is folded (`Flags.fold_eq`). -/
theorem lettersFoldByShiftXorCaps : Obligations.LettersFoldByShiftXorCaps := by
  intro s sc c hwf hc hb he hn hw hread hlo hhi
  obtain ⟨-, -, htc2, -⟩ := hwf
  have hsel : (s.inPlain && (Instr.makeOther sc).wf s.cfg) = true := by simp [State.inPlain, hb, he, hw]
  have hfold : s.flags.fold c =
      if s.flags.shift = s.flags.caps then c else BitVec.ofNat 8 (c.toNat - 0x20) := by
    simp [Flags.fold_eq, hlo, hhi]
  rw [← hfold]
  change s.runScRow (.makeOther sc) _ (s.flags.onLookup s.cfg sc) = _
  rw [Flags.onLookup_of_some (Flags.table_read_letter htc2 hn hread (isLower_iff.2 ⟨hlo, hhi⟩))]
  exact State.runScRow_char hc (.makeOther sc) hsel s.flags _

/-! ### POLL -/

@[simp] theorem State.consumeOne_calls (s : State) : s.consumeOne.2.calls = s.calls := by
  rw [State.consumeOne_eq]
  split
  · rfl
  · rw [State.finishConsume_snd]
    rfl

/-- Settles O50: `POLL` and `CONSUME` make the same `CONSUME`, which itself shows nothing and makes no call
(`State.consumeOne_trace`, `State.consumeOne_calls`). -/
theorem pollRepeatsConsume : Obligations.PollRepeatsConsume := by
  intro s hc
  refine ⟨_, _, exec_consume hc, congrArg _ State.consumeOne_trace, ?_⟩
  have htrace : s.consumeOne.2.trace = s.trace := State.consumeOne_trace
  have hcalls : s.consumeOne.2.calls = s.calls := State.consumeOne_calls s
  rw [← htrace, ← hcalls]
  refine (State.whenFree_free hc .poll _).trans ?_
  generalize s.consumeOne = p
  obtain ⟨r, u⟩ := p
  cases r <;> rfl

end Sys2Proof.Machine
end

section
/-! The statement about a keyboard that does not clock (R171, R224): with no event to come and every call
waiting, a step only uses up a turn (`step_of_nothing_enabled`), and so does every run. -/

namespace Sys2Proof.Machine

variable {s : State}

/-! ### Steps with nothing enabled -/

/-- With no event to come and every call waiting, whichever agent's turn it is passes (log entry 3). -/
theorem step_of_nothing_enabled (hl : s.legal = true) (he : s.events = []) (hw : ∀ c ∈ s.calls, s.holds c = true) :
    step s = .next { s with turns := s.turns.drop 1 } := by
  cases ht : s.turns with
  | nil =>
    rw [step_of_no_turn hl ht, List.drop_nil, ← ht]
  | cons a rest =>
    refine step_of_fetch_none hl ht ?_
    cases a with
    | line => exact State.fetch_line_nil he
    | foreground =>
      exact State.fetch_foreground_none fun c hc => (State.holds_turns s rest c).trans (hw c hc)

/-- What is enabled does not depend on the turns, so nothing comes to be enabled by their passing. -/
theorem run_of_nothing_enabled (hl : s.legal = true) (he : s.events = []) (hw : ∀ c ∈ s.calls, s.holds c = true)
    (k : Nat) : Host.Core.run Sys2Proof.core k s = .next { s with turns := s.turns.drop k } := by
  induction k generalizing s with
  | zero => rfl
  | succ k ih =>
    have hw' : ∀ c ∈ s.calls, ({ s with turns := s.turns.drop 1 } : State).holds c = true := fun c hc =>
      (State.holds_turns s _ c).trans (hw c hc)
    calc Host.Core.run Sys2Proof.core (k + 1) s
      _ = Host.Core.run Sys2Proof.core k { s with turns := s.turns.drop 1 } :=
        run_succ (step_of_nothing_enabled hl he hw) k
      _ = .next { s with turns := (s.turns.drop 1).drop k } :=
        ih (s := { s with turns := s.turns.drop 1 }) hl he hw'
      _ = .next { s with turns := s.turns.drop (k + 1) } := by rw [List.drop_drop, Nat.add_comm 1 k]

/-! ### A send in progress -/

theorem waits_of_held {i : Instr} (h : held i s = true) : waits i s = true := by
  simp [waits, h]

/-- During a send with bytes pending all of the foreground waits: the two sends for Idle (R107), the rest for the
emptying of `CMDP` (R171). -/
theorem waits_of_sending (hm : s.mode = .sending) (hp : s.cmdp ≠ []) {i : Instr} (ha : agentOf i = .foreground) :
    waits i s = true := by
  have hidle : s.mode ≠ .idle := by simp [hm]
  by_cases hs : i = .sendStart
  · subst hs
    exact waits_of_held (held_sendStart_iff.2 (.inr hidle))
  by_cases hf : ∃ b ack, i = .txFrame b ack
  · obtain ⟨b, ack, rfl⟩ := hf
    exact waits_of_held ((held_txFrame_iff b ack).2 (.inr hidle))
  · exact waits_of_pending hp ha hs fun b ack h => hf ⟨b, ack, h⟩

/-- Settles O60: every call waits (`waits_of_sending`) and no event is to come, so only turns are used up
(`run_of_nothing_enabled`). -/
theorem noEdgesHangTheForeground : Obligations.NoEdgesHangTheForeground := by
  intro s k hl hm hp he hcalls
  refine run_of_nothing_enabled hl he (fun c hc => ?_) k
  obtain ⟨i, hd, ha⟩ := hcalls c hc
  rw [State.holds_of_decode hd]
  exact waits_of_sending hm hp ha

end Sys2Proof.Machine
end

section
/-! The statement of spec/60_exceptions.md: an operation invoked by name has a next state (R190). A call that waits
answers the state with the call put back (`exec_of_held`), and under the invariant every edge selects a row (R14,
R73). -/

namespace Sys2Proof.Machine

variable {s : State}

/-- A guarded operation with an answer of its own always answers, since waiting is an answer too (log entry 4). -/
theorem State.whenFree_total (i : Instr) {go : Result} (h : ∃ t, go = .next t) : ∃ t, s.whenFree i go = .next t := by
  rcases State.whenFree_cases (s := s) i go with ⟨-, hgo⟩ | ⟨-, hwait⟩
  · rwa [hgo]
  · exact ⟨s.hold i, hwait⟩

theorem exec_sendStart_total : ∃ t, exec .sendStart s = .next t := by
  by_cases hs : s.mode = .idle ∧ s.cmdp ≠ []
  · obtain ⟨b, rest, hc⟩ := List.exists_cons_of_ne_nil hs.2
    exact ⟨_, exec_sendStart hc hs.1⟩
  · exact ⟨_, exec_of_held (held_sendStart_iff.2 (by tauto))⟩

/-- `POLL` answers whatever its `CONSUME` results in (R157). -/
theorem exec_poll_total : ∃ t, exec .poll s = .next t := by
  refine State.whenFree_total .poll ?_
  generalize s.consumeOne = p
  obtain ⟨r, u⟩ := p
  cases r <;> exact ⟨_, rfl⟩

theorem exec_init_total : ∀ k, ∃ t, exec (.init k) s = .next t
  | .reset => ⟨_, rfl⟩
  | .call => State.whenFree_total (.init .call) ⟨_, rfl⟩

/-- Settles O15: only an edge needs the invariant, which gives it a row (`State.Inv.edgeRow_isSome`); the guarded calls
answer or wait (`State.whenFree_total`), and there is no fault to answer (R190). -/
theorem everyNamedOperationIsTotal : Obligations.EveryNamedOperationIsTotal := by
  refine ⟨fun i s hi hf => ?_, fun _ _ f => nomatch f⟩
  cases i
  case edge d => exact State.takeEdge_total d (hi.edgeRow_isSome d)
  case sendStart => exact exec_sendStart_total
  case poll => exact exec_poll_total
  case init k => exact exec_init_total k
  case enqueue | dequeue | translate => exact ⟨_, rfl⟩
  case consume | sendCommand | setLeds | status => exact State.whenFree_total _ ⟨_, rfl⟩
  -- the other formats are not invoked by name
  all_goals cases hf

end Sys2Proof.Machine
end
